-- ==== Sys2Proof/Word.lean ====
section
/-! DEFINITION. The engine's word types (spec/00_scope.md R9): bits and bytes. -/

namespace Sys2Proof

/-- A line level or a one-bit register: `true` is 1 (high), `false` is 0 (low) (spec/00_scope.md R9). -/
abbrev Bit := Bool

/-- Eight bits, unsigned unless stated (spec/00_scope.md R9). -/
abbrev Byte := BitVec 8

end Sys2Proof
end

