-- ==== Sys2Proof/Syntax.lean ====
section
/-! DEFINITION. Pin identifiers, the 24 instructions of spec/opcode_table.json, and the three kinds of
request word they travel in (spec/30_encoding.md R70). -/

namespace Sys2Proof

/-- Logical pins: `PinId = {RS, RW, E, DL0 .. DL7}` (spec/20_memory.md R51). -/
inductive PinId where
  /-- register-select line -/
  | rs
  /-- read/write line -/
  | rw
  /-- enable line -/
  | e
  /-- data line `DLi` -/
  | dl (i : Fin 8)
  deriving DecidableEq, Repr

/-- One constructor per row of spec/opcode_table.json. Operands are as R71, R72 and R75 of
spec/30_encoding.md assemble them: `line`, `col`, `index` are unsigned bytes that the request itself
range-checks. -/
inductive Instr where
  /-- `WRC cmd`: write a command byte (R111) -/
  | wrc (cmd : Byte)
  /-- `WRD byte`: write a data byte (R112) -/
  | wrd (byte : Byte)
  /-- `CLRPIN id`: drive a line low (R92) -/
  | clrpin (id : PinId)
  /-- `SETPIN id`: drive a line high (R91) -/
  | setpin (id : PinId)
  /-- `READPIN id`: read a line back (R93) -/
  | readpin (id : PinId)
  /-- `INIT`: the five-command initialisation (R173) -/
  | init
  /-- `WRCHAR ch`: a character at the cursor (R145) -/
  | wrchar (ch : Byte)
  /-- `WRCHARAT line, col, ch` (R146) -/
  | wrcharat (line col ch : Byte)
  /-- `WRSTR s`: a string at the cursor (R147); the `len` operand is the length of `text` -/
  | wrstr (text : List Byte)
  /-- `WRSTRAT line, col, s` (R148) -/
  | wrstrat (line col : Byte) (text : List Byte)
  /-- `CLEAR` (R149) -/
  | clear
  /-- `HOME` (R150) -/
  | home
  /-- `SHIFTL` (R151) -/
  | shiftl
  /-- `SHIFTR` (R152) -/
  | shiftr
  /-- `SETCURSOR line, col` (R142) -/
  | setcursor (line col : Byte)
  /-- `DISPON` (R153) -/
  | dispon
  /-- `DISPOFF` (R154) -/
  | dispoff
  /-- `CURON` (R155) -/
  | curon
  /-- `CUROFF` (R156) -/
  | curoff
  /-- `BLINKON` (R157) -/
  | blinkon
  /-- `BLINKOFF` (R158) -/
  | blinkoff
  /-- `DEFGLYPH index, b[0..7]` (R160); `bitmap` holds `b[0]` first -/
  | defglyph (index : Byte) (bitmap : List Byte)
  /-- `WRGLYPH index` (R161) -/
  | wrglyph (index : Byte)
  /-- `WRINT v`: 32-bit two's complement (R163) -/
  | wrint (v : BitVec 32)
  deriving DecidableEq, Repr

/-- A word presented at a port, in its format (spec/30_encoding.md R70). -/
inductive Request where
  /-- core request port: 9 bits `rs : byte` (R71) -/
  | cp (word : BitVec 9)
  /-- pin port: 6 bits `op : id` (R72) -/
  | pp (word : BitVec 6)
  /-- front-end request port: a byte string, complete when its last byte has been presented (R73) -/
  | fe (bytes : List Byte)
  deriving DecidableEq, Repr

/-- What the outside world does next: present a request, assert `rst`, or present a request and assert
`rst` after `phases` further phases of it (spec/70_reset_and_hazards.md R210, R229, R232). -/
inductive HostEvent where
  /-- a request is presented -/
  | request (r : Request)
  /-- `rst` is asserted -/
  | rst
  /-- a request is presented and `rst` is asserted `phases` phases after the core first accepts -/
  | cut (r : Request) (phases : Nat)
  deriving DecidableEq, Repr

/-- The upper-case mnemonic of a request (spec/30_encoding.md R81). -/
def Instr.mnemonic : Instr → String
  | .wrc _ => "WRC"
  | .wrd _ => "WRD"
  | .clrpin _ => "CLRPIN"
  | .setpin _ => "SETPIN"
  | .readpin _ => "READPIN"
  | .init => "INIT"
  | .wrchar _ => "WRCHAR"
  | .wrcharat _ _ _ => "WRCHARAT"
  | .wrstr _ => "WRSTR"
  | .wrstrat _ _ _ => "WRSTRAT"
  | .clear => "CLEAR"
  | .home => "HOME"
  | .shiftl => "SHIFTL"
  | .shiftr => "SHIFTR"
  | .setcursor _ _ => "SETCURSOR"
  | .dispon => "DISPON"
  | .dispoff => "DISPOFF"
  | .curon => "CURON"
  | .curoff => "CUROFF"
  | .blinkon => "BLINKON"
  | .blinkoff => "BLINKOFF"
  | .defglyph _ _ => "DEFGLYPH"
  | .wrglyph _ => "WRGLYPH"
  | .wrint _ => "WRINT"

end Sys2Proof
end

