-- ==== Sys2Proof/WellFormed.lean ====
section
/-! DEFINITION. Which instructions have an encoding: a string of at most 255 bytes and a bitmap of
exactly 8 bytes (spec/30_encoding.md R73, R74). Every other operand fits by its type. -/

namespace Sys2Proof

/-- `len` is one byte: "`0 .. 255`" (spec/30_encoding.md R73). -/
def textFits (text : List Byte) : Bool := text.length ≤ 255

/-- "bitmap: [u8;8]" (spec/30_encoding.md R74, R75). -/
def bitmapFits (bitmap : List Byte) : Bool := bitmap.length == 8

/-- The instruction can be written as a request. -/
def Instr.wellFormed : Instr → Bool
  | .wrstr text => textFits text
  | .wrstrat _ _ text => textFits text
  | .defglyph _ bitmap => bitmapFits bitmap
  | .wrc _ | .wrd _ | .clrpin _ | .setpin _ | .readpin _ | .init | .wrchar _ | .wrcharat _ _ _
  | .clear | .home | .shiftl | .shiftr | .setcursor _ _ | .dispon | .dispoff | .curon | .curoff
  | .blinkon | .blinkoff | .wrglyph _ | .wrint _ => true

end Sys2Proof
end

