-- ==== Sys2Proof/Decode.lean ====
section
/-! DEFINITION. Decoder and encoder of the three formats (spec/30_encoding.md R70 to R80), the decoder
first. The decoder is total and rejects reserved words and requests of the wrong length. -/

namespace Sys2Proof

/-! ## Pin identifiers (R72) -/

/-- Pin identifiers: 0x0 RS, 0x1 RW, 0x2 E, 0x8 + i DLi; 0x3 to 0x7 are never produced (R72, R78). -/
def PinId.ofCode (code : BitVec 4) : Option PinId :=
  if code = 0x0 then some .rs
  else if code = 0x1 then some .rw
  else if code = 0x2 then some .e
  else if code.getLsbD 3 then some (.dl (Fin.ofNat 8 code.toNat))
  else none

/-! ## Decoder -/

/-- Format CP: bit 8 is `rs`, bits 7:0 the byte; all 512 words are legal (R71). -/
def decodeCp (word : BitVec 9) : Instr :=
  if word.getLsbD 8 then .wrd (word.setWidth 8) else .wrc (word.setWidth 8)

/-- Format PP: bits 5:4 are `op` (00 CLRPIN, 01 SETPIN, 10 READPIN, 11 never produced), bits 3:0 the pin (R72). -/
def decodePp (word : BitVec 6) : Option Instr :=
  match PinId.ofCode (word.extractLsb' 0 4) with
  | none => none
  | some id =>
    match (word.extractLsb' 4 2).toNat with
    | 0 => some (.clrpin id)
    | 1 => some (.setpin id)
    | 2 => some (.readpin id)
    | _ => none

/-- The next `n` bytes and what follows them, if there are that many. -/
def takeBytes (n : Nat) (bytes : List Byte) : Option (List Byte × List Byte) :=
  if n ≤ bytes.length then some (bytes.take n, bytes.drop n) else none

/-- Format FE from the front of a byte stream: the request and the bytes after it. The first byte alone
fixes the operand bytes, except for the `len` byte of WRSTR and WRSTRAT (R73, R74, R80). -/
def decodeFePrefix : List Byte → Option (Instr × List Byte)
  | [] => none
  | opcode :: operands =>
    match opcode.toNat, operands with
    | 0x00, rest => some (.init, rest)
    | 0x01, ch :: rest => some (.wrchar ch, rest)
    | 0x02, line :: col :: ch :: rest => some (.wrcharat line col ch, rest)
    | 0x03, len :: rest =>
      match takeBytes len.toNat rest with
      | some (text, after) => some (.wrstr text, after)
      | none => none
    | 0x04, line :: col :: len :: rest =>
      match takeBytes len.toNat rest with
      | some (text, after) => some (.wrstrat line col text, after)
      | none => none
    | 0x05, rest => some (.clear, rest)
    | 0x06, rest => some (.home, rest)
    | 0x07, rest => some (.shiftl, rest)
    | 0x08, rest => some (.shiftr, rest)
    | 0x09, line :: col :: rest => some (.setcursor line col, rest)
    | 0x0A, rest => some (.dispon, rest)
    | 0x0B, rest => some (.dispoff, rest)
    | 0x0C, rest => some (.curon, rest)
    | 0x0D, rest => some (.curoff, rest)
    | 0x0E, rest => some (.blinkon, rest)
    | 0x0F, rest => some (.blinkoff, rest)
    | 0x10, index :: rest =>
      match takeBytes 8 rest with
      | some (bitmap, after) => some (.defglyph index bitmap, after)
      | none => none
    | 0x11, index :: rest => some (.wrglyph index, rest)
    | 0x12, b1 :: b2 :: b3 :: b4 :: rest => some (.wrint (b1 ++ b2 ++ b3 ++ b4), rest)
    | _, _ => none

/-- A whole front-end request: nothing may follow its last byte (R73, R79). -/
def decodeFe (bytes : List Byte) : Option Instr :=
  match decodeFePrefix bytes with
  | some (i, []) => some i
  | _ => none

/-- The instruction a presented word stands for, or none where the spec gives the word no meaning (R78, R79). -/
def decode : Request → Option Instr
  | .cp word => some (decodeCp word)
  | .pp word => decodePp word
  | .fe bytes => decodeFe bytes

/-! ## Encoder -/

/-- The 4-bit code of a pin identifier (R72). -/
def PinId.code : PinId → BitVec 4
  | .rs => 0x0
  | .rw => 0x1
  | .e => 0x2
  | .dl i => BitVec.ofNat 4 (8 + i.val)

/-- The `len` operand of a string (R75). -/
def lenByte (text : List Byte) : Byte := BitVec.ofNat 8 text.length

/-- The request word of an instruction (R71, R72, R74, R75; `WRINT` most significant byte first, R54). -/
def encode : Instr → Request
  | .wrc cmd => .cp (0#1 ++ cmd)
  | .wrd byte => .cp (1#1 ++ byte)
  | .clrpin id => .pp (0b00#2 ++ id.code)
  | .setpin id => .pp (0b01#2 ++ id.code)
  | .readpin id => .pp (0b10#2 ++ id.code)
  | .init => .fe [0x00]
  | .wrchar ch => .fe [0x01, ch]
  | .wrcharat line col ch => .fe [0x02, line, col, ch]
  | .wrstr text => .fe ([0x03, lenByte text] ++ text)
  | .wrstrat line col text => .fe ([0x04, line, col, lenByte text] ++ text)
  | .clear => .fe [0x05]
  | .home => .fe [0x06]
  | .shiftl => .fe [0x07]
  | .shiftr => .fe [0x08]
  | .setcursor line col => .fe [0x09, line, col]
  | .dispon => .fe [0x0A]
  | .dispoff => .fe [0x0B]
  | .curon => .fe [0x0C]
  | .curoff => .fe [0x0D]
  | .blinkon => .fe [0x0E]
  | .blinkoff => .fe [0x0F]
  | .defglyph index bitmap => .fe ([0x10, index] ++ bitmap)
  | .wrglyph index => .fe [0x11, index]
  | .wrint v =>
    .fe [0x12, v.extractLsb' 24 8, v.extractLsb' 16 8, v.extractLsb' 8 8, v.extractLsb' 0 8]

/-! ## Words in the numbering of spec/opcode_table.json

The table numbers bits from the least significant bit of the first word and does not say at which port a
word stands. The port follows from the width; an 8-bit word that is a front-end opcode is taken as one,
any other 8-bit word below 0x40 as a pin word (log 14). -/

/-- The lowest `n` bytes of a number, least significant first. -/
def lowBytes : Nat → Nat → List Byte
  | 0, _ => []
  | n + 1, w => BitVec.ofNat 8 w :: lowBytes n (w / 256)

/-- Zero bytes enough to complete a request that begins with `leading`: nine operand bytes at most, and as many
string bytes as a `len` operand among the leading bytes can ask for (R74). -/
def zeroOperands (leading : List Byte) : List Byte :=
  List.replicate (9 + ((leading.drop 1).map BitVec.toNat).sum) 0x00

/-- A front-end request from its leading bytes, the missing operand bytes being zero. DESIGN CHOICE (log 14): bytes
beyond the request's last operand are dropped, because a table word may be wider than the request; at the port
`decodeFe` refuses them (R79). -/
def tableFe (leading : List Byte) : Request :=
  match decodeFePrefix (leading ++ zeroOperands leading) with
  | some (i, _) => encode i
  | none => .fe leading

/-- The request a table word stands for. -/
def tableRequest (nbits w : Nat) : Request :=
  if nbits ≤ 7 then .pp (BitVec.ofNat 6 w)
  else if nbits ≤ 8 then
    if 0x12 < w ∧ w < 0x40 then .pp (BitVec.ofNat 6 w) else tableFe [BitVec.ofNat 8 w]
  else if nbits ≤ 16 ∧ w < 512 then .cp (BitVec.ofNat 9 w)
  else tableFe (lowBytes (nbits / 8) w)

/-- The instruction the decoder reads from a table word. -/
def decodeTableWord (nbits w : Nat) : Option Instr := decode (tableRequest nbits w)

end Sys2Proof
end

