-- ==== Sys2Proof/Config.lean ====
section
/-! DEFINITION. The configuration record of one engine instance (spec/00_scope.md R6, R7), the one
instance `State.reset` stands for, and the model's free values. -/

namespace Sys2Proof

/-- `BUSW`: "bus width (4-bit or 8-bit)" (spec/00_scope.md R6). -/
inductive BusWidth where
  /-- `BUSW = 4` -/
  | four
  /-- `BUSW = 8` -/
  | eight
  deriving DecidableEq, Repr

/-- The constants of one engine instance. No operation writes them (spec/10_state.md R30). -/
structure Config where
  /-- `HAS_FE`: the front-end layer is present (R7) -/
  hasFe : Bool
  /-- `BUSW` -/
  busw : BusWidth
  /-- `RW_PRESENT`: the read/write control line is connected -/
  rwPresent : Bool
  /-- `POLL_MAX`: most busy-flag reads of one request -/
  pollMax : Nat
  /-- `T_AS`, ticks -/
  tAs : Nat
  /-- `T_PW`, ticks -/
  tPw : Nat
  /-- `T_H`, ticks -/
  tH : Nat
  /-- `T_SHORT`, ticks -/
  tShort : Nat
  /-- `T_LONG`, ticks -/
  tLong : Nat
  /-- `LONG_CMD`, as the list of its members -/
  longCmd : List Byte
  /-- `bound`, as the list of the bound pins -/
  boundPins : List PinId
  /-- `LVL_CMD` -/
  lvlCmd : Bit
  /-- `LVL_DATA` -/
  lvlData : Bit
  /-- `LVL_WRITE` -/
  lvlWrite : Bit
  /-- `LVL_READ` -/
  lvlRead : Bit
  /-- `LVL_E_ACT` -/
  lvlEAct : Bit
  /-- `LVL_E_IDLE` -/
  lvlEIdle : Bit
  /-- `BUSY` -/
  busy : Bit
  /-- `LINES` -/
  lines : Nat
  /-- `COLS` -/
  cols : Nat
  /-- `LINE_OFFSET[0 .. LINES-1]` -/
  lineOffset : List (BitVec 7)
  /-- `FUNCSET_CMD` -/
  funcsetCmd : Byte
  /-- `ENTRY_CMD` -/
  entryCmd : Byte
  /-- `DISPLAY_CMD` -/
  displayCmd : Byte
  /-- `ENTRY_SET` -/
  entrySet : List Byte
  /-- `DISPLAY_SET` -/
  displaySet : List Byte
  deriving DecidableEq, Repr

/-- DESIGN CHOICE (log 2): the instance `State.reset` stands for. Parameters that have a default in
spec/00_scope.md R6 and R7 have it; `BUSW`, `RW_PRESENT`, `POLL_MAX`, the waits, `LINES`, `COLS` and
the three mode commands are OPEN or per instance and are chosen here. No statement rests on them. -/
def Config.atReset : Config where
  hasFe := true
  busw := .eight
  rwPresent := false
  pollMax := 4
  tAs := 1
  tPw := 1
  tH := 1
  tShort := 2
  tLong := 40
  longCmd := [0x01, 0x02, 0x03]
  boundPins := [.rs, .rw, .e, .dl 0, .dl 1, .dl 2, .dl 3, .dl 4, .dl 5, .dl 6, .dl 7]
  lvlCmd := false
  lvlData := true
  lvlWrite := false
  lvlRead := true
  lvlEAct := true
  lvlEIdle := false
  busy := true
  lines := 2
  cols := 16
  lineOffset := [0x00, 0x40]
  funcsetCmd := 0x38
  entryCmd := 0x06
  displayCmd := 0x0C
  entrySet := [0x04, 0x05, 0x06, 0x07]
  displaySet := [0x08, 0x09, 0x0A, 0x0B, 0x0C, 0x0D, 0x0E, 0x0F]

/-- What the pin abstraction supplies for one transaction under no law (spec/93_implementation_defined.md
U2, U3, U4): whether a bound pin fails, and one bit, which is the level the controller drives for a
read of a released data line and the level a failed write leaves on its line. -/
structure PinDraw where
  /-- the transaction answers `fail` although the pin is bound (U3) -/
  fails : Bool
  /-- the free bit of the transaction (U2, U4) -/
  bit : Bit
  deriving DecidableEq, Repr, Inhabited

/-- Levels of the lines `RS`, `RW`, `E`, `DL0 .. DL7` (spec/10_state.md R29). -/
structure Lines where
  /-- `L[RS]` -/
  rs : Bit
  /-- `L[RW]` -/
  rw : Bit
  /-- `L[E]` -/
  e : Bit
  /-- `L[DLi]` is bit `i` -/
  dl : BitVec 8
  deriving DecidableEq, Repr, Inhabited

/-- Free value (log 4): the `n`th pin answer the model's input list does not supply. -/
opaque Config.freeDraw : Nat → PinDraw

/-- Free value (log 5): the line levels the platform left at reset (spec/93_implementation_defined.md U1). -/
opaque Config.platformLines : Lines

end Sys2Proof
end

