-- ==== Sys2Proof/Machine/State.lean ====
section
/-! DEFINITION. The engine's state (spec/10_state.md), the reasons a step can stop, and the state after
reset (spec/10_state.md R38, spec/70_reset_and_hazards.md R211). -/

namespace Sys2Proof.Machine

/-- The phases of `PH` (spec/10_state.md R40). -/
inductive Phase where
  | idle | fRs | fRw | fData | fSetup | fEhi | fPw | fElo | fHold | sDelay
  | pRs | pRw | pSetup | pEhi | pPw | pRead | pElo | pHold | pEhi2 | pPw2 | pElo2 | pHold2 | pTest
  | done
  deriving DecidableEq, Repr

/-- Status values and error kinds (spec/30_encoding.md R76, spec/60_exceptions.md R190).
`invalidConfiguration` is the outcome of construction only. -/
inductive Status where
  | ok | notInitialized | outOfBounds | pinFault | hardwareTimeout | invalidConfiguration
  deriving DecidableEq, Repr

/-- `IST` (spec/10_state.md R31). -/
inductive InitState where
  | uninitialized | initializing | ready
  deriving DecidableEq, Repr

/-- `CUR = (line, col)`, 1 and 5 bits wide (spec/10_state.md R20, R32). -/
structure Cursor where
  line : BitVec 1
  col : BitVec 5
  deriving DecidableEq, Repr

/-- The five wait parameters (spec/40_bus_framing.md R95). -/
inductive WaitParam where
  | tAs | tPw | tH | tShort | tLong
  deriving DecidableEq, Repr

/-- One entry of the pin trace (spec/00_scope.md R11). -/
inductive Event where
  /-- `S(id)` for level 1, `C(id)` for level 0 -/
  | wrote (id : PinId) (level : Bit)
  /-- `S(id)!` or `C(id)!`: the transaction answered `fail` -/
  | writeFailed (id : PinId) (level : Bit)
  /-- `R(id)=b` -/
  | readBit (id : PinId) (b : Bit)
  /-- `R(id)!` -/
  | readFailed (id : PinId)
  /-- `W(T)` -/
  | waited (t : WaitParam)
  deriving DecidableEq, Repr

/-- An entry of the pin trace with what stood on the bus when it had happened: `DOE` and the line levels. After a failed
write its line stands at that transaction's free level (log 5, log 6). -/
structure Moment where
  event : Event
  doe : Bit
  lines : Lines
  deriving DecidableEq, Repr

/-- The state: the spec's registers (R20), the configuration, the pin abstraction's lines and the history,
and the model's inputs. -/
structure State where
  /-- the configuration, constant (spec/10_state.md R30) -/
  cfg : Config
  /-- `REQ_RS` (R21): 0 Command, 1 Data -/
  reqRs : Bit
  /-- `REQ_BYTE` (R21) -/
  reqByte : Byte
  /-- `PH` (R22) -/
  ph : Phase
  /-- `DI` (R23) -/
  di : Fin 8
  /-- `NIB` (R23): 0 high nibble, 1 low nibble -/
  nib : Bit
  /-- `PCNT` (R24) -/
  pcnt : Nat
  /-- `BFS` (R25) -/
  bfs : Bit
  /-- `RES` (R26) -/
  res : Status
  /-- `DOE` (R27) -/
  doe : Bit
  /-- `TMR` (R28) -/
  tmr : Nat
  /-- `IST` (R31) -/
  ist : InitState
  /-- `CUR` (R32) -/
  cur : Cursor
  /-- `DCB` (R33): display, cursor, blink -/
  dcb : BitVec 3
  /-- `L[id]`, held by the pin abstraction (R29, log 5) -/
  lines : Lines
  /-- the pin trace with the bus at each of its events, oldest first (spec/00_scope.md R11, log 6) -/
  history : List Moment
  /-- statuses presented on the core response port, oldest first (R39, log 6) -/
  coreResponses : List Status
  /-- statuses presented on the front-end response port, oldest first (R39, log 6) -/
  feResponses : List Status
  /-- model's own: what the host does next (log 3) -/
  host : List HostEvent
  /-- model's own: phases until `rst` arrives inside the request in progress (log 19) -/
  rstIn : Option Nat
  /-- model's own: pin answers still to come (log 4) -/
  draws : List PinDraw
  /-- model's own: free pin answers used so far (log 4) -/
  drawn : Nat
  deriving DecidableEq, Repr

/-- Stops that the spec calls fatal. -/
inductive Fault where
  /-- The configuration fails `valid`: "this is fatal and prevents driver construction" (R171, R195).
  Raised by every meaning and by `step`. Safe: no engine exists, so nothing is claimed of one. -/
  | invalidConfiguration
  deriving DecidableEq, Repr

/-- Situations the spec gives no meaning, and instructions not modelled. -/
inductive Refusal where
  /-- An instruction without a meaning yet, by its mnemonic; raised by `exec` only. Safe. -/
  | notModelled (mnemonic : String)
  /-- A front-end request with a reserved opcode or of the wrong length (spec/30_encoding.md R79). Raised by `step`. Safe. -/
  | malformedRequest
  /-- A pin word the engine never produces: reserved `op` or `id`, or DL4 .. DL7 on a 4-bit bus
  (spec/30_encoding.md R78). Raised by `step` and by the pin-port meanings. Safe. -/
  | reservedPinWord
  /-- A request put to an engine that is not in `IDLE`: "not accepted until then" (spec/20_memory.md R61,
  spec/93_implementation_defined.md U6). Raised by the meanings of the CP and FE requests; `step` never
  runs into it, it lets the engine go on instead. Safe. -/
  | engineBusy
  /-- The host presents a core word on an instance with a front-end: "the CP port is internal: only the front-end
  presents core requests" (spec/10_state.md R39). Raised by `step`. Safe. -/
  | corePortInternal
  /-- A front-end request on an instance without a front-end (spec/00_scope.md R7, spec/10_state.md R39).
  Raised by the FE meanings. Safe. -/
  | noFrontEnd
  /-- A valid configuration with core parameters outside their stated ranges: "a configuration violating
  them is outside this spec" (spec/44_init_validation.md R170). Raised by every meaning and by `step`. Safe. -/
  | configurationOutsideSpec
  deriving DecidableEq, Repr

/-- The pin trace (spec/00_scope.md R11). -/
def State.trace (s : State) : List Event := s.history.map Moment.event

/-- An engine of configuration `c` in its reset state (spec/10_state.md R38). The elements with "no value"
hold zero (log 7); the line levels are the platform's, a free value (log 5). -/
def State.resetOf (c : Config) : State where
  cfg := c
  reqRs := false
  reqByte := 0x00
  ph := .idle
  di := 0
  nib := false
  pcnt := 0
  bfs := false
  res := .ok
  doe := false
  tmr := 0
  ist := .uninitialized
  cur := ⟨0, 0⟩
  dcb := 0b000
  lines := Config.platformLines
  history := []
  coreResponses := []
  feResponses := []
  host := []
  rstIn := none
  draws := []
  drawn := 0

/-- The machine right after reset, for the instance `Config.atReset` (log 2). -/
def State.reset : State := State.resetOf Config.atReset

end Sys2Proof.Machine
end

