-- ==== Sys2Proof/Machine/Operands.lean ====
section
/-! DEFINITION. Operand forms and the arithmetic on them: phase and level numbers, the bits of a framing
(spec/20_memory.md R52, R53), line levels (spec/10_state.md R29), DDRAM and CGRAM addresses
(spec/42_address_cursor.md R141, spec/43_glyph_format.md R160), decimal text (R162), operand ranges. -/

namespace Sys2Proof.Machine

/-! ## Encodings of the state elements -/

/-- The number of a phase (spec/10_state.md R40). -/
def Phase.code : Phase → BitVec 5
  | .idle => 0 | .fRs => 1 | .fRw => 2 | .fData => 3 | .fSetup => 4 | .fEhi => 5 | .fPw => 6
  | .fElo => 7 | .fHold => 8 | .sDelay => 9 | .pRs => 10 | .pRw => 11 | .pSetup => 12 | .pEhi => 13
  | .pPw => 14 | .pRead => 15 | .pElo => 16 | .pHold => 17 | .pEhi2 => 18 | .pPw2 => 19
  | .pElo2 => 20 | .pHold2 => 21 | .pTest => 22 | .done => 23

/-- The phases of kind "pin" (spec/10_state.md R40): they perform exactly one pin transaction. -/
def Phase.isPin : Phase → Bool
  | .fRs | .fRw | .fData | .fEhi | .fElo | .pRs | .pRw | .pEhi | .pRead | .pElo | .pEhi2 | .pElo2 => true
  | .idle | .fSetup | .fPw | .fHold | .sDelay | .pSetup | .pPw | .pHold | .pPw2 | .pHold2 | .pTest
  | .done => false

/-- The number of an initialisation state (spec/10_state.md R31). -/
def InitState.code : InitState → BitVec 2
  | .uninitialized => 0 | .initializing => 1 | .ready => 2

/-! ## Bus width and lines -/

/-- `BUSW` as a number. -/
def busLines : BusWidth → Nat
  | .four => 4
  | .eight => 8

/-- The data line `DL[BUSW-1]`. -/
def topLine : BusWidth → Fin 8
  | .four => 3
  | .eight => 7

/-- `bound(id)` (spec/00_scope.md R6). -/
def bound (c : Config) (id : PinId) : Bool := c.boundPins.contains id

/-- `REQPINS`: the pins the engine ever names (spec/00_scope.md R6). -/
def reqPins (c : Config) : List PinId :=
  [.rs, .e] ++ (if c.rwPresent then [.rw] else []) ++
    match c.busw with
    | .four => [.dl 0, .dl 1, .dl 2, .dl 3]
    | .eight => [.dl 0, .dl 1, .dl 2, .dl 3, .dl 4, .dl 5, .dl 6, .dl 7]

/-- Pin words for DL4 .. DL7 are never produced on a 4-bit bus (spec/30_encoding.md R78). -/
def pinProduced (c : Config) : PinId → Bool
  | .rs | .rw | .e => true
  | .dl i => i.val < busLines c.busw

/-- The level of one line (spec/10_state.md R29). -/
def lineLevel (l : Lines) : PinId → Bit
  | .rs => l.rs
  | .rw => l.rw
  | .e => l.e
  | .dl i => l.dl.getLsbD i.val

/-- One data line of the bus at a level, the others as they are. -/
def setDataLine (dl : BitVec 8) (i : Fin 8) (level : Bit) : BitVec 8 :=
  if level then dl ||| (1#8 <<< i.val) else dl &&& ~~~(1#8 <<< i.val)

/-- One line at a level, the others as they are. -/
def setLine (l : Lines) (id : PinId) (level : Bit) : Lines :=
  match id with
  | .rs => { l with rs := level }
  | .rw => { l with rw := level }
  | .e => { l with e := level }
  | .dl i => { l with dl := setDataLine l.dl i level }

/-- The level of the register-select line for a request's `rs` (spec/40_bus_framing.md R96). -/
def rsLevel (c : Config) (rs : Bit) : Bit := if rs then c.lvlData else c.lvlCmd

/-- `cur` of spec/40_bus_framing.md R98: what the framing carries, zero-extended to 8 bits. On a 4-bit bus the
high nibble travels first (spec/20_memory.md R52). -/
def framingValue (w : BusWidth) (nib : Bit) (byte : Byte) : BitVec 8 :=
  match w with
  | .eight => byte
  | .four => if nib then (byte.extractLsb' 0 4).setWidth 8 else (byte.extractLsb' 4 4).setWidth 8

/-- The ticks of a wait parameter. -/
def waitTicks (c : Config) : WaitParam → Nat
  | .tAs => c.tAs
  | .tPw => c.tPw
  | .tH => c.tH
  | .tShort => c.tShort
  | .tLong => c.tLong

/-! ## Addresses and ranges -/

/-- `LINE_OFFSET[line]`; a line that does not exist reads as 0, which no execution does (log 16). -/
def lineOffset (c : Config) (line : Nat) : BitVec 7 := c.lineOffset.getD line 0

/-- `ddram_addr(line, col) = (LINE_OFFSET[line] + col) mod 128` (spec/42_address_cursor.md R141). -/
def ddramAddr (c : Config) (line col : Nat) : BitVec 7 :=
  BitVec.ofNat 7 ((lineOffset c line).toNat + col)

/-- `line < LINES` and `col < COLS` (spec/42_address_cursor.md R142). -/
def cellInBounds (c : Config) (line col : Byte) : Bool :=
  line.toNat < c.lines && col.toNat < c.cols

/-- `index <= 7` (spec/43_glyph_format.md R160). -/
def glyphInBounds (index : Byte) : Bool := index.toNat ≤ 7

/-! ## Decimal text (spec/43_glyph_format.md R162) -/

/-- The base-10 digits of `m` in ASCII, most significant first; `fuel` bounds the number of digits. -/
def decimalDigits : Nat → Nat → List Byte
  | 0, _ => []
  | fuel + 1, m =>
    if m < 10 then [BitVec.ofNat 8 (0x30 + m)]
    else decimalDigits fuel (m / 10) ++ [BitVec.ofNat 8 (0x30 + m % 10)]

/-- `dec(v)`: the magnitude is taken in the naturals, so the most negative value does not overflow. Ten digits
are enough for `2147483648`. -/
def decimalText (v : BitVec 32) : List Byte :=
  (if v.toInt < 0 then [0x2D] else []) ++ decimalDigits 10 v.toInt.natAbs

end Sys2Proof.Machine
end

