-- ==== Sys2Proof/Machine/Flags.lean ====
section
/-! DEFINITION. The engine's one-bit conditions and bit fields. It has no condition codes (spec/10_state.md
R37); what it tests or computes bit by bit is the busy flag (spec/41_transfer_sequencer.md R125), the `LONG_CMD`
predicate (R115), the display-control shadow `DCB` (spec/42_address_cursor.md R153 to R158) and the status
codes (spec/30_encoding.md R76). -/

namespace Sys2Proof.Machine

/-- The 3-bit code of a status (spec/30_encoding.md R76). -/
def Status.code : Status → BitVec 3
  | .ok => 0
  | .notInitialized => 1
  | .outOfBounds => 2
  | .pinFault => 3
  | .hardwareTimeout => 4
  | .invalidConfiguration => 5

/-- The statuses a core request can end with (spec/00_scope.md R12, spec/10_state.md R26). -/
def Status.isCore : Status → Bool
  | .ok | .pinFault | .hardwareTimeout => true
  | .notInitialized | .outOfBounds | .invalidConfiguration => false

/-- The statuses a front-end request can end with (spec/00_scope.md R12). -/
def Status.isFrontEnd : Status → Bool
  | .ok | .notInitialized | .outOfBounds | .pinFault | .hardwareTimeout => true
  | .invalidConfiguration => false

/-- `BFS = BUSY` (spec/41_transfer_sequencer.md R125). -/
def stillBusy (c : Config) (bfs : Bit) : Bool := bfs == c.busy

/-- `LONG_CMD(b)` (spec/41_transfer_sequencer.md R115). -/
def longCmd (c : Config) (b : Byte) : Bool := c.longCmd.contains b

/-- The wait of `S_DELAY`: long only for a Command transfer of a `LONG_CMD` byte (R114). -/
def settleWait (c : Config) (rs : Bit) (b : Byte) : WaitParam :=
  if !rs && longCmd c b then .tLong else .tShort

/-- `DCB` with the display bit set (R153). -/
def dcbDisplayOn (dcb : BitVec 3) : BitVec 3 := dcb ||| 0b100#3
/-- `DCB` with the display bit cleared (R154). -/
def dcbDisplayOff (dcb : BitVec 3) : BitVec 3 := dcb &&& 0b011#3
/-- `DCB` with the cursor bit set (R155). -/
def dcbCursorOn (dcb : BitVec 3) : BitVec 3 := dcb ||| 0b010#3
/-- `DCB` with the cursor bit cleared (R156). -/
def dcbCursorOff (dcb : BitVec 3) : BitVec 3 := dcb &&& 0b101#3
/-- `DCB` with the blink bit set (R157). -/
def dcbBlinkOn (dcb : BitVec 3) : BitVec 3 := dcb ||| 0b001#3
/-- `DCB` with the blink bit cleared (R158). -/
def dcbBlinkOff (dcb : BitVec 3) : BitVec 3 := dcb &&& 0b110#3

end Sys2Proof.Machine
end

