-- ==== Sys2Proof/Machine/Validation.lean ====
section
/-! DEFINITION. Static validation of a configuration and construction of an engine
(spec/44_init_validation.md R170, R171). -/

namespace Sys2Proof.Machine

/-- V1: "line count (1 or 2), column count (8/16/20)"; the bus width is 4 or 8 by its type. -/
def validGeometry (c : Config) : Bool :=
  (c.lines == 1 || c.lines == 2) && (c.cols == 8 || c.cols == 16 || c.cols == 20)

/-- V2: `FUNCSET_CMD[7:5] = 0b001`. -/
def validFunctionSet (c : Config) : Bool := c.funcsetCmd.extractLsb' 5 3 == 0b001#3

/-- V3: `FUNCSET_CMD[4]` says the bus width. -/
def validBusWidthBit (c : Config) : Bool := c.funcsetCmd.getLsbD 4 == (c.busw == .eight)

/-- V4: `FUNCSET_CMD[3]` says the line count. -/
def validLineCountBit (c : Config) : Bool := c.funcsetCmd.getLsbD 3 == (c.lines == 2)

/-- V5: `ENTRY_CMD` is in `ENTRY_SET`. -/
def validEntryCmd (c : Config) : Bool := c.entrySet.contains c.entryCmd

/-- V6: `DISPLAY_CMD` is in `DISPLAY_SET`. -/
def validDisplayCmd (c : Config) : Bool := c.displaySet.contains c.displayCmd

/-- `valid(cfg)`: all of V1 to V6 (R170). -/
def valid (c : Config) : Bool :=
  validGeometry c && validFunctionSet c && validBusWidthBit c && validLineCountBit c &&
    validEntryCmd c && validDisplayCmd c

/-- The stated ranges of the parameters that `valid` does not test: `POLL_MAX >= 1` and `T_LONG > T_SHORT`
(R170), one offset per line (spec/00_scope.md R7), `LONG_CMD` holds clear and return-home and the two levels of
one line differ (spec/93_implementation_defined.md section 2). DESIGN CHOICE (log 13): the number of line offsets is asked of
an instance without a front-end too, where R7 gives no such parameter. -/
def parametersInRange (c : Config) : Bool :=
  decide (1 ≤ c.pollMax) && decide (c.tShort < c.tLong) && c.lineOffset.length == c.lines &&
    longCmd c 0x01 && longCmd c 0x02 &&
    (c.lvlCmd != c.lvlData) && (c.lvlWrite != c.lvlRead) && (c.lvlEAct != c.lvlEIdle)

/-- The configurations this spec is about. -/
def legalConfig (c : Config) : Bool := valid c && parametersInRange c

/-- Outcomes of construction (R171). -/
inductive Construction where
  /-- an engine in its reset state -/
  | engine (s : State)
  /-- `InvalidConfiguration`: no engine, no pin operation -/
  | invalidConfiguration
  /-- "a configuration violating them is outside this spec" (R170) -/
  | outsideSpec
  deriving DecidableEq, Repr

/-- Construction of an engine (R171). -/
def construct (c : Config) : Construction :=
  if valid c then
    if parametersInRange c then .engine (State.resetOf c) else .outsideSpec
  else .invalidConfiguration

end Sys2Proof.Machine
end

