-- ==== Sys2Proof/Machine/Ops.lean ====
section
/-! DEFINITION. The shared operations: pin transactions (spec/40_bus_framing.md R91 to R94), the wait (R95),
taking an error (spec/60_exceptions.md R196) and answering (spec/41_transfer_sequencer.md R126), acceptance
(R110), reset (spec/70_reset_and_hazards.md R211). -/

namespace Sys2Proof.Machine

/-! ## Pin answers (log 4) -/

/-- The answer the pin abstraction will give to the next transaction. -/
def nextDraw (s : State) : PinDraw :=
  match s.draws with
  | d :: _ => d
  | [] => Config.freeDraw s.drawn

/-- The state in which that answer is used up. -/
def popDraw (s : State) : State :=
  match s.draws with
  | _ :: rest => { s with draws := rest }
  | [] => { s with drawn := s.drawn + 1 }

/-- The answer to the `k`th transaction from now on. -/
def drawAt (s : State) (k : Nat) : PinDraw :=
  if k < s.draws.length then s.draws.getD k (Config.freeDraw 0)
  else Config.freeDraw (s.drawn + (k - s.draws.length))

/-! ## Pin transactions -/

/-- Append an event to the pin trace (spec/00_scope.md R11), with the bus as it now stands. -/
def logEvent (e : Event) (s : State) : State := { s with history := s.history ++ [⟨e, s.doe, s.lines⟩] }

/-- A transaction answers `ok`: unbound implies `fail`, a bound pin may fail (spec/40_bus_framing.md R91, log 4). -/
def answersOk (s : State) (id : PinId) : Bool := bound s.cfg id && !(nextDraw s).fails

/-- `PinWrite(id, v)`: `SETPIN` for 1, `CLRPIN` for 0 (R91, R92, R94). On `ok` the line has the level; on
`fail` its level is unspecified, a free bit. -/
def pinWrite (id : PinId) (level : Bit) (s : State) : Bool × State :=
  if answersOk s id then
    (true, logEvent (.wrote id level) { popDraw s with lines := setLine s.lines id level })
  else
    (false, logEvent (.writeFailed id level) { popDraw s with lines := setLine s.lines id (nextDraw s).bit })

/-- The bit a successful read delivers: the controller's for a released data line, else the driven level (R93). -/
def readLevel (s : State) (id : PinId) : Bit :=
  match id with
  | .dl i => if s.doe then lineLevel s.lines (.dl i) else (nextDraw s).bit
  | .rs | .rw | .e => lineLevel s.lines id

/-- `PinRead(id)`: `READPIN` (R93). A read changes no level; a failed read delivers nothing. -/
def pinRead (id : PinId) (s : State) : Option Bit × State :=
  if answersOk s id then
    (some (readLevel s id), logEvent (.readBit id (readLevel s id)) (popDraw s))
  else
    (none, logEvent (.readFailed id) (popDraw s))

/-! ## Waits -/

/-- Entering a wait phase: `TMR <- T` (R95). -/
def loadTimer (t : WaitParam) (s : State) : State := { s with tmr := waitTicks s.cfg t }

/-- `ticks` ticks pass; the down-counter stops at 0 (spec/10_state.md R28). -/
def elapse (ticks : Nat) (s : State) : State := { s with tmr := s.tmr - ticks }

/-- `Wait(T)`: load the timer, let it run down, record the wait (R95). -/
def waitFor (t : WaitParam) (s : State) : State :=
  let loaded := loadTimer t s
  logEvent (.waited t) (elapse loaded.tmr loaded)

/-! ## Taking an error and answering -/

/-- `abort(E)`: `RES <- E; PH <- DONE`, nothing else (spec/60_exceptions.md R196). -/
def abort (e : Status) (s : State) : State := { s with res := e, ph := .done }

/-- The return from an error or a completed request, phase `DONE`: present `RES`, go to `IDLE`
(spec/41_transfer_sequencer.md R126). There is no other return (spec/60_exceptions.md R201). -/
def respondCore (s : State) : State :=
  { s with coreResponses := s.coreResponses ++ [s.res], ph := .idle }

/-- A pin phase that writes: go on in `next` on `ok`, abort with `PinFault` on `fail` (spec/40_bus_framing.md R104). -/
def drive (id : PinId) (level : Bit) (next : State → State) (s : State) : State :=
  match pinWrite id level s with
  | (true, after) => next after
  | (false, after) => abort .pinFault after

/-- A pin phase that reads: hand the bit to `next` on `ok`, abort with `PinFault` on `fail`. -/
def sample (id : PinId) (next : Bit → State → State) (s : State) : State :=
  match pinRead id s with
  | (some b, after) => next b after
  | (none, after) => abort .pinFault after

/-- `PH <- phase`. -/
def goto (p : Phase) (s : State) : State := { s with ph := p }

/-! ## Acceptance and reset -/

/-- `rst` has arrived inside the request in progress: nothing more of it happens (spec/70_reset_and_hazards.md R229, log 19). -/
def cutOff (s : State) : Bool := s.rstIn == some 0

/-- One phase fewer until `rst` arrives. -/
def countToRst (s : State) : State := { s with rstIn := s.rstIn.map (· - 1) }

/-- Acceptance of a core request (spec/41_transfer_sequencer.md R110). -/
def accept (rs : Bit) (byte : Byte) (s : State) : State :=
  { s with reqRs := rs, reqByte := byte, nib := false, di := 0, pcnt := 0, ph := .fRs }

/-- `rst`: the registers as after reset; the configuration, the lines, the history and the statuses already
presented stay (spec/10_state.md R38, spec/70_reset_and_hazards.md R211, R212, R229). -/
def resetEngine (s : State) : State :=
  { State.resetOf s.cfg with
    lines := s.lines, history := s.history, coreResponses := s.coreResponses, feResponses := s.feResponses,
    host := s.host, rstIn := none, draws := s.draws, drawn := s.drawn }

/-! ## Who may run -/

/-- The host may present a core word only where there is no front-end: with one, "the CP port is internal"
(spec/10_state.md R39; log 11). Pin words: log 12. -/
def hostMayPresent (c : Config) : Request → Bool
  | .cp _ => !c.hasFe
  | .pp _ | .fe _ => true

/-- `HAS_FE` of an instance like this one whose host owns the port of the word (spec/10_state.md R39; log 14). -/
def portHasFrontEnd (c : Config) : Request → Bool
  | .cp _ => false
  | .pp _ => c.hasFe
  | .fe _ => true

/-- Run on an engine that exists (R171; log 13). -/
def onEngine (s : State) (run : Host.Outcome State Fault Refusal) : Host.Outcome State Fault Refusal :=
  if valid s.cfg then
    if parametersInRange s.cfg then run else .refused .configurationOutsideSpec
  else .fault .invalidConfiguration

/-- Run on an engine that accepts a request: phase `IDLE` (R110, spec/20_memory.md R61; log 10). -/
def onIdleEngine (s : State) (run : Host.Outcome State Fault Refusal) : Host.Outcome State Fault Refusal :=
  onEngine s (if s.ph = .idle then run else .refused .engineBusy)

end Sys2Proof.Machine
end

