-- ==== Sys2Proof/Machine/Phases.lean ====
section
/-! DEFINITION. The phase machine of the core: one definition per phase, bus framing (spec/40_bus_framing.md
R96 to R103) then settle (spec/41_transfer_sequencer.md R114 to R126), the step of one phase (spec/10_state.md R41)
and a core request run from acceptance to its response. -/

namespace Sys2Proof.Machine

/-! ## Bus framing -/

/-- `F_RS` (R96): register-select first. -/
def phaseFRs (s : State) : State :=
  drive .rs (rsLevel s.cfg s.reqRs)
    (fun t => goto (if t.cfg.rwPresent then .fRw else .fData) { t with di := 0 }) s

/-- `F_RW` (R97): read/write to "write". -/
def phaseFRw (s : State) : State := drive .rw s.cfg.lvlWrite (goto .fData) s

/-- `F_DATA` (R98): one data line; at `DI = 0` the engine's drivers are enabled first. -/
def phaseFData (s : State) : State :=
  let enabled := if s.di = 0 then { s with doe := true } else s
  drive (.dl s.di) ((framingValue s.cfg.busw s.nib s.reqByte).getLsbD s.di.val)
    (fun t => if t.di = topLine t.cfg.busw then goto .fSetup t else { t with di := t.di + 1 }) enabled

/-- `F_SETUP` (R99). -/
def phaseFSetup (s : State) : State := goto .fEhi (waitFor .tAs s)

/-- `F_EHI` (R100): start of the strobe. -/
def phaseFEhi (s : State) : State := drive .e s.cfg.lvlEAct (goto .fPw) s

/-- `F_PW` (R101). -/
def phaseFPw (s : State) : State := goto .fElo (waitFor .tPw s)

/-- `F_ELO` (R102): end of the strobe. -/
def phaseFElo (s : State) : State := drive .e s.cfg.lvlEIdle (goto .fHold) s

/-- `F_HOLD` (R103): hold, then the low nibble, or the settle of R113. -/
def phaseFHold (s : State) : State :=
  let held := waitFor .tH s
  if held.cfg.busw = .four ∧ held.nib = false then goto .fData { held with nib := true, di := 0 }
  else goto (if held.cfg.rwPresent then .pRs else .sDelay) held

/-! ## Settle -/

/-- `S_DELAY` (R114): the fixed delay. -/
def phaseSDelay (s : State) : State :=
  goto .done { waitFor (settleWait s.cfg s.reqRs s.reqByte) s with res := .ok }

/-- `P_RS` (R116): release the data lines, then register-select to Command. -/
def phasePRs (s : State) : State := drive .rs s.cfg.lvlCmd (goto .pRw) { s with doe := false }

/-- `P_RW` (R117): read/write to "read". -/
def phasePRw (s : State) : State := drive .rw s.cfg.lvlRead (goto .pSetup) s

/-- `P_SETUP` (R118). -/
def phasePSetup (s : State) : State := goto .pEhi (waitFor .tAs s)

/-- `P_EHI` (R119): start of a poll iteration. -/
def phasePEhi (s : State) : State := drive .e s.cfg.lvlEAct (goto .pPw) s

/-- `P_PW` (R120). -/
def phasePPw (s : State) : State := goto .pRead (waitFor .tPw s)

/-- `P_READ` (R121): sample the busy flag on the top data line. -/
def phasePRead (s : State) : State :=
  sample (.dl (topLine s.cfg.busw)) (fun b t => goto .pElo { t with bfs := b }) s

/-- `P_ELO` (R122). -/
def phasePElo (s : State) : State := drive .e s.cfg.lvlEIdle (goto .pHold) s

/-- `P_HOLD` (R123). -/
def phasePHold (s : State) : State :=
  goto (if s.cfg.busw = .four then .pEhi2 else .pTest) (waitFor .tH s)

/-- `P_EHI2` (R124): the second strobe of a 4-bit iteration, not sampled. -/
def phasePEhi2 (s : State) : State := drive .e s.cfg.lvlEAct (goto .pPw2) s

/-- `P_PW2` (R124). -/
def phasePPw2 (s : State) : State := goto .pElo2 (waitFor .tPw s)

/-- `P_ELO2` (R124). -/
def phasePElo2 (s : State) : State := drive .e s.cfg.lvlEIdle (goto .pHold2) s

/-- `P_HOLD2` (R124). -/
def phasePHold2 (s : State) : State := goto .pTest (waitFor .tH s)

/-- `P_TEST` (R125): count the iteration; not busy ends `OK`, the bound reached ends `HardwareTimeout`. -/
def phasePTest (s : State) : State :=
  let counted := { s with pcnt := s.pcnt + 1 }
  if !stillBusy counted.cfg counted.bfs then goto .done { counted with res := .ok }
  else if counted.pcnt = counted.cfg.pollMax then abort .hardwareTimeout counted
  else goto .pEhi counted

/-! ## One phase, one request -/

/-- The step of the phase `PH` names (spec/10_state.md R22, R40, R41). `IDLE` with no request stays (R110). -/
def phaseStep (s : State) : State :=
  match s.ph with
  | .idle => s
  | .fRs => phaseFRs s
  | .fRw => phaseFRw s
  | .fData => phaseFData s
  | .fSetup => phaseFSetup s
  | .fEhi => phaseFEhi s
  | .fPw => phaseFPw s
  | .fElo => phaseFElo s
  | .fHold => phaseFHold s
  | .sDelay => phaseSDelay s
  | .pRs => phasePRs s
  | .pRw => phasePRw s
  | .pSetup => phasePSetup s
  | .pEhi => phasePEhi s
  | .pPw => phasePPw s
  | .pRead => phasePRead s
  | .pElo => phasePElo s
  | .pHold => phasePHold s
  | .pEhi2 => phasePEhi2 s
  | .pPw2 => phasePPw2 s
  | .pElo2 => phasePElo2 s
  | .pHold2 => phasePHold2 s
  | .pTest => phasePTest s
  | .done => respondCore s

/-- Phases one after another, at most `fuel` of them, until the engine is idle again or `rst` arrives. -/
def runPhases : Nat → State → State
  | 0, s => s
  | fuel + 1, s =>
    if s.ph = .idle ∨ cutOff s = true then s else runPhases fuel (countToRst (phaseStep s))

/-- More phases than any request takes: 20 for a framing pair with `RS` and `RW`, 3 to begin a poll, 10 per
iteration, 1 to respond (spec/41_transfer_sequencer.md R130; log 15). -/
def phaseBudget (c : Config) : Nat := 24 + 10 * c.pollMax

/-- A core request from acceptance to its response (spec/41_transfer_sequencer.md R111, R112): acceptance, `EMIT`,
`SETTLE`, respond. -/
def coreRequest (rs : Bit) (byte : Byte) (s : State) : State :=
  if cutOff s then s else runPhases (phaseBudget s.cfg) (accept rs byte s)

end Sys2Proof.Machine
end

