-- ==== Sys2Proof/Machine/CoreRequests.lean ====
section
/-! DEFINITION. The two core requests (spec/41_transfer_sequencer.md R111, R112), as the core runs them for whoever owns
its port: the front-end where there is one, else the host (spec/10_state.md R39). That the host stays off the port of an
instance with a front-end is `hostMayPresent`, asked by `step`. -/

namespace Sys2Proof.Machine

/-- `WRC cmd` (R111): a Command transfer, `rs = 0`. -/
def execWrc (cmd : Byte) (s : State) : Host.Outcome State Fault Refusal :=
  onIdleEngine s (.next (coreRequest false cmd s))

/-- `WRD byte` (R112): a Data transfer, `rs = 1`. -/
def execWrd (byte : Byte) (s : State) : Host.Outcome State Fault Refusal :=
  onIdleEngine s (.next (coreRequest true byte s))

end Sys2Proof.Machine
end

