-- ==== Sys2Proof/Machine/Commands.lean ====
section
/-! DEFINITION. The controller's command bytes as the engine uses them (spec/30_encoding.md R77, general
knowledge in the spec's own marking) and the pseudo-requests of a host on the core port (R82). -/

namespace Sys2Proof.Machine

/-- clear display -/
def cmdClear : Byte := 0x01
/-- return home -/
def cmdHome : Byte := 0x02
/-- display off, second step of `INIT` -/
def cmdDisplayOff : Byte := 0x08
/-- shift the display left -/
def cmdShiftLeft : Byte := 0x18
/-- shift the display right -/
def cmdShiftRight : Byte := 0x1C
/-- display on/off control: `0x08 | DCB` -/
def cmdDisplay (dcb : BitVec 3) : Byte := 0x08#8 ||| dcb.setWidth 8
/-- set CGRAM address: `0x40 | a`, `a` 6 bits -/
def cmdSetCgram (a : BitVec 6) : Byte := 0x40#8 ||| a.setWidth 8
/-- set DDRAM address: `0x80 | a`, `a` 7 bits -/
def cmdSetDdram (a : BitVec 7) : Byte := 0x80#8 ||| a.setWidth 8
/-- the CGRAM address of a glyph slot, `index * 8` (spec/43_glyph_format.md R160) -/
def glyphAddr (index : Byte) : BitVec 6 := BitVec.ofNat 6 (index.toNat * 8)

/-- The command classes of R77, in the order of its table. -/
inductive CommandClass where
  | clearDisplay | returnHome | entryMode | displayControl | shift | functionSet | setCgram | setDdram
  deriving DecidableEq, Repr

/-- The class of a command byte: the position of its highest one. `0x00` belongs to none. The engine itself
never asks (R77). -/
def commandClass (b : Byte) : Option CommandClass :=
  if b.getLsbD 7 then some .setDdram
  else if b.getLsbD 6 then some .setCgram
  else if b.getLsbD 5 then some .functionSet
  else if b.getLsbD 4 then some .shift
  else if b.getLsbD 3 then some .displayControl
  else if b.getLsbD 2 then some .entryMode
  else if b.getLsbD 1 then some .returnHome
  else if b.getLsbD 0 then some .clearDisplay
  else none

/-- The pseudo-requests of R82; each is a fixed `WRC` with no encoding of its own. -/
inductive PseudoRequest where
  | clear
  | home
  | entry (i s : BitVec 1)
  | display (d c b : BitVec 1)
  | shiftL
  | shiftR
  | funcset (l n f : BitVec 1)
  | cgaddr (a : BitVec 6)
  | ddaddr (a : BitVec 7)
  deriving DecidableEq, Repr

/-- The expansion column of R82. -/
def PseudoRequest.expand : PseudoRequest → Instr
  | .clear => .wrc cmdClear
  | .home => .wrc cmdHome
  | .entry i s => .wrc (0x04#8 ||| (i.setWidth 8 <<< 1) ||| s.setWidth 8)
  | .display d c b => .wrc (0x08#8 ||| (d.setWidth 8 <<< 2) ||| (c.setWidth 8 <<< 1) ||| b.setWidth 8)
  | .shiftL => .wrc cmdShiftLeft
  | .shiftR => .wrc cmdShiftRight
  | .funcset l n f => .wrc (0x20#8 ||| (l.setWidth 8 <<< 4) ||| (n.setWidth 8 <<< 3) ||| (f.setWidth 8 <<< 2))
  | .cgaddr a => .wrc (cmdSetCgram a)
  | .ddaddr a => .wrc (cmdSetDdram a)

end Sys2Proof.Machine
end

