-- ==== Sys2Proof/Machine/FrontEnd.lean ====
section
/-! DEFINITION. The shared machinery of the front-end: `try`, `GATE`, `ADVANCE`, `PUTBYTE`, the string loop and
the response (spec/42_address_cursor.md R140 to R147, spec/60_exceptions.md R197). -/

namespace Sys2Proof.Machine

/-- How a front-end request ends: its status and the state. -/
abbrev FeResult := Status × State

/-- `try WRC cmd`: on a status other than `OK` the request returns it at once (spec/60_exceptions.md R197). -/
def tryCommand (cmd : Byte) (s : State) (next : State → FeResult) : FeResult :=
  let after := coreRequest false cmd s
  if after.res = .ok then next after else (after.res, after)

/-- `try WRD byte`. -/
def tryData (byte : Byte) (s : State) (next : State → FeResult) : FeResult :=
  let after := coreRequest true byte s
  if after.res = .ok then next after else (after.res, after)

/-- `GATE` (R140). -/
def gate (s : State) (next : State → FeResult) : FeResult :=
  if s.ist = .ready then next s else (.notInitialized, s)

/-- `ADVANCE` (R143): the column saturates at `COLS`. -/
def advance (s : State) : State :=
  if s.cur.col.toNat < s.cfg.cols then { s with cur := { s.cur with col := s.cur.col + 1 } } else s

/-- What `PUTBYTE` answers: `Full` is an internal outcome, not a status (R144). -/
inductive PutResult where
  | full
  | ended (status : Status)
  deriving DecidableEq, Repr

/-- `PUTBYTE(b)` (R144). -/
def putByte (b : Byte) (s : State) : PutResult × State :=
  if s.cfg.cols ≤ s.cur.col.toNat then (.full, s)
  else
    let after := coreRequest true b s
    if after.res = .ok then (.ended .ok, advance after) else (.ended after.res, after)

/-- One character: `Full` is silently `OK` (R145). -/
def putChar (b : Byte) (s : State) : FeResult :=
  match putByte b s with
  | (.full, after) => (.ok, after)
  | (.ended r, after) => (r, after)

/-- The loop of `WRSTR` (R147): stop with `OK` when the line is full, at once on an error. -/
def putText : List Byte → State → FeResult
  | [], s => (.ok, s)
  | b :: rest, s =>
    match putByte b s with
    | (.full, after) => (.ok, after)
    | (.ended .ok, after) => putText rest after
    | (.ended r, after) => (r, after)

/-- `WRC (0x80 | ddram_addr(line, col)); CUR <- (line, col)` after the range check (R142). -/
def moveCursor (line col : Byte) (s : State) (next : State → FeResult) : FeResult :=
  if cellInBounds s.cfg line col then
    tryCommand (cmdSetDdram (ddramAddr s.cfg line.toNat col.toNat)) s
      fun t => next { t with cur := ⟨line.setWidth 1, col.setWidth 5⟩ }
  else (.outOfBounds, s)

/-- Send the display-control command for a new `DCB`; commit it on success (R153 to R158). -/
def sendDisplay (dcb : BitVec 3) (s : State) : FeResult :=
  tryCommand (cmdDisplay dcb) s fun t => (.ok, { t with dcb := dcb })

/-- The eight bitmap bytes of `DEFGLYPH`, in order (spec/43_glyph_format.md R160). -/
def sendBitmap : List Byte → State → (State → FeResult) → FeResult
  | [], s, next => next s
  | b :: rest, s, next => tryData b s fun t => sendBitmap rest t next

/-- The commands of `INIT` in order; the status of the first that fails (spec/44_init_validation.md R173). -/
def sendCommands : List Byte → State → FeResult
  | [], s => (.ok, s)
  | c :: rest, s => tryCommand c s (sendCommands rest)

/-- Present the status on the front-end response port; a request cut off by `rst` gives none
(spec/93_implementation_defined.md U12). -/
def respondFrontEnd (r : FeResult) : State :=
  if cutOff r.2 then r.2 else { r.2 with feResponses := r.2.feResponses ++ [r.1] }

/-- A front-end request runs on an idle engine that has a front-end (spec/10_state.md R39). -/
def frontEnd (body : State → FeResult) (s : State) : Host.Outcome State Fault Refusal :=
  onIdleEngine s (if s.cfg.hasFe then .next (respondFrontEnd (body s)) else .refused .noFrontEnd)

end Sys2Proof.Machine
end

