-- ==== Sys2Proof/Machine/CursorRequests.lean ====
section
/-! DEFINITION. The requests of the address and cursor model: positioning, characters, strings, clear, home,
shifts, display control (spec/42_address_cursor.md R142, R145 to R158). -/

namespace Sys2Proof.Machine

/-- `SETCURSOR line, col` (R142). -/
def execSetcursor (line col : Byte) (s : State) : Host.Outcome State Fault Refusal :=
  frontEnd (fun t => gate t fun t => moveCursor line col t fun t => (.ok, t)) s

/-- `WRCHAR ch` (R145). -/
def execWrchar (ch : Byte) (s : State) : Host.Outcome State Fault Refusal :=
  frontEnd (fun t => gate t (putChar ch)) s

/-- `WRCHARAT line, col, ch` (R146). -/
def execWrcharat (line col ch : Byte) (s : State) : Host.Outcome State Fault Refusal :=
  frontEnd (fun t => gate t fun t => moveCursor line col t (putChar ch)) s

/-- `WRSTR s` (R147). -/
def execWrstr (text : List Byte) (s : State) : Host.Outcome State Fault Refusal :=
  frontEnd (fun t => gate t (putText text)) s

/-- `WRSTRAT line, col, s` (R148). -/
def execWrstrat (line col : Byte) (text : List Byte) (s : State) : Host.Outcome State Fault Refusal :=
  frontEnd (fun t => gate t fun t => moveCursor line col t (putText text)) s

/-- `CLEAR` (R149). -/
def execClear (s : State) : Host.Outcome State Fault Refusal :=
  frontEnd (fun t => gate t fun t => tryCommand cmdClear t fun t => (.ok, { t with cur := ⟨0, 0⟩ })) s

/-- `HOME` (R150). -/
def execHome (s : State) : Host.Outcome State Fault Refusal :=
  frontEnd (fun t => gate t fun t => tryCommand cmdHome t fun t => (.ok, { t with cur := ⟨0, 0⟩ })) s

/-- `SHIFTL` (R151): the cursor does not move. -/
def execShiftl (s : State) : Host.Outcome State Fault Refusal :=
  frontEnd (fun t => gate t fun t => tryCommand cmdShiftLeft t fun t => (.ok, t)) s

/-- `SHIFTR` (R152): the cursor does not move. -/
def execShiftr (s : State) : Host.Outcome State Fault Refusal :=
  frontEnd (fun t => gate t fun t => tryCommand cmdShiftRight t fun t => (.ok, t)) s

/-- `DISPON` (R153). -/
def execDispon (s : State) : Host.Outcome State Fault Refusal :=
  frontEnd (fun t => gate t fun t => sendDisplay (dcbDisplayOn t.dcb) t) s

/-- `DISPOFF` (R154). -/
def execDispoff (s : State) : Host.Outcome State Fault Refusal :=
  frontEnd (fun t => gate t fun t => sendDisplay (dcbDisplayOff t.dcb) t) s

/-- `CURON` (R155). -/
def execCuron (s : State) : Host.Outcome State Fault Refusal :=
  frontEnd (fun t => gate t fun t => sendDisplay (dcbCursorOn t.dcb) t) s

/-- `CUROFF` (R156). -/
def execCuroff (s : State) : Host.Outcome State Fault Refusal :=
  frontEnd (fun t => gate t fun t => sendDisplay (dcbCursorOff t.dcb) t) s

/-- `BLINKON` (R157). -/
def execBlinkon (s : State) : Host.Outcome State Fault Refusal :=
  frontEnd (fun t => gate t fun t => sendDisplay (dcbBlinkOn t.dcb) t) s

/-- `BLINKOFF` (R158). -/
def execBlinkoff (s : State) : Host.Outcome State Fault Refusal :=
  frontEnd (fun t => gate t fun t => sendDisplay (dcbBlinkOff t.dcb) t) s

end Sys2Proof.Machine
end

