-- ==== Sys2Proof/Machine/GlyphRequests.lean ====
section
/-! DEFINITION. The requests of the glyph and formatting layer (spec/43_glyph_format.md R160 to R163). -/

namespace Sys2Proof.Machine

/-- `DEFGLYPH index, b[0..7]` (R160): set the CGRAM address, write the bitmap, restore the DDRAM address of the cursor. -/
def execDefglyph (index : Byte) (bitmap : List Byte) (s : State) : Host.Outcome State Fault Refusal :=
  frontEnd
    (fun t => gate t fun t =>
      if glyphInBounds index then
        tryCommand (cmdSetCgram (glyphAddr index)) t fun t =>
          sendBitmap bitmap t fun t =>
            tryCommand (cmdSetDdram (ddramAddr t.cfg t.cur.line.toNat t.cur.col.toNat)) t fun t => (.ok, t)
      else (.outOfBounds, t)) s

/-- `WRGLYPH index` (R161): the character code is the slot index. -/
def execWrglyph (index : Byte) (s : State) : Host.Outcome State Fault Refusal :=
  frontEnd (fun t => gate t fun t => if glyphInBounds index then putChar index t else (.outOfBounds, t)) s

/-- `WRINT v` (R163): the string loop over `dec(v)`. -/
def execWrint (v : BitVec 32) (s : State) : Host.Outcome State Fault Refusal :=
  frontEnd (fun t => gate t (putText (decimalText v))) s

end Sys2Proof.Machine
end

