-- ==== Sys2Proof/Machine/InitRequest.lean ====
section
/-! DEFINITION. The initialisation request (spec/44_init_validation.md R172 to R174). -/

namespace Sys2Proof.Machine

/-- The five commands of `INIT`, in strict order (R173). -/
def initCommands (c : Config) : List Byte :=
  [c.funcsetCmd, cmdDisplayOff, cmdClear, c.entryCmd, c.displayCmd]

/-- What `INIT` does with the outcome of its commands: `Ready` with a fresh cursor and shadow, or back to
`Uninitialized` (R172, R173, R174). -/
def concludeInit (r : FeResult) : FeResult :=
  if r.1 = .ok then
    (.ok, { r.2 with cur := ⟨0, 0⟩, dcb := r.2.cfg.displayCmd.setWidth 3, ist := .ready })
  else (r.1, { r.2 with ist := .uninitialized })

/-- `INIT` (R173): not gated, may be issued again. -/
def execInit (s : State) : Host.Outcome State Fault Refusal :=
  frontEnd (fun t => concludeInit (sendCommands (initCommands t.cfg) { t with ist := .initializing })) s

end Sys2Proof.Machine
end

