-- ==== Sys2Proof/Machine/PinPort.lean ====
section
/-! DEFINITION. The three pin-port operations as instructions of their own (spec/40_bus_framing.md R91 to R93).
In a pin phase the answer `fail` aborts that phase's request; outside one there is no request to abort and the
answer stands in the trace only (log 12). -/

namespace Sys2Proof.Machine

/-- "the answer `fail` makes the issuing phase abort with `PinFault`" (R91, R92, R93). -/
def pinAnswered (ok : Bool) (s : State) : State :=
  if !ok && s.ph.isPin then abort .pinFault s else s

/-- A pin word the engine can produce (spec/30_encoding.md R78), put to the pin abstraction unless `rst` came first. -/
def pinTransaction (id : PinId) (s : State) (run : State → State) : Host.Outcome State Fault Refusal :=
  onEngine s
    (if pinProduced s.cfg id then .next (if cutOff s then s else run s)
     else .refused .reservedPinWord)

/-- `CLRPIN id` (R92). -/
def execClrpin (id : PinId) (s : State) : Host.Outcome State Fault Refusal :=
  pinTransaction id s fun t => pinAnswered (pinWrite id false t).1 (pinWrite id false t).2

/-- `SETPIN id` (R91). -/
def execSetpin (id : PinId) (s : State) : Host.Outcome State Fault Refusal :=
  pinTransaction id s fun t => pinAnswered (pinWrite id true t).1 (pinWrite id true t).2

/-- `READPIN id` (R93). The bit stands in the trace; only phase `P_READ` stores it in `BFS`. -/
def execReadpin (id : PinId) (s : State) : Host.Outcome State Fault Refusal :=
  pinTransaction id s fun t => pinAnswered (pinRead id t).1.isSome (pinRead id t).2

end Sys2Proof.Machine
end

