-- ==== Sys2Proof/Machine/Dispatch.lean ====
section
/-! DEFINITION. One arm per instruction. -/

namespace Sys2Proof.Machine

def exec (i : Instr) (s : State) : Host.Outcome State Fault Refusal :=
  match i with
  | .wrc cmd => Sys2Proof.Machine.execWrc cmd s
  | .wrd byte => Sys2Proof.Machine.execWrd byte s
  | .clrpin id => Sys2Proof.Machine.execClrpin id s
  | .setpin id => Sys2Proof.Machine.execSetpin id s
  | .readpin id => Sys2Proof.Machine.execReadpin id s
  | .init => Sys2Proof.Machine.execInit s
  | .wrchar ch => Sys2Proof.Machine.execWrchar ch s
  | .wrcharat line col ch => Sys2Proof.Machine.execWrcharat line col ch s
  | .wrstr text => Sys2Proof.Machine.execWrstr text s
  | .wrstrat line col text => Sys2Proof.Machine.execWrstrat line col text s
  | .clear => Sys2Proof.Machine.execClear s
  | .home => Sys2Proof.Machine.execHome s
  | .shiftl => Sys2Proof.Machine.execShiftl s
  | .shiftr => Sys2Proof.Machine.execShiftr s
  | .setcursor line col => Sys2Proof.Machine.execSetcursor line col s
  | .dispon => Sys2Proof.Machine.execDispon s
  | .dispoff => Sys2Proof.Machine.execDispoff s
  | .curon => Sys2Proof.Machine.execCuron s
  | .curoff => Sys2Proof.Machine.execCuroff s
  | .blinkon => Sys2Proof.Machine.execBlinkon s
  | .blinkoff => Sys2Proof.Machine.execBlinkoff s
  | .defglyph index bitmap => Sys2Proof.Machine.execDefglyph index bitmap s
  | .wrglyph index => Sys2Proof.Machine.execWrglyph index s
  | .wrint v => Sys2Proof.Machine.execWrint v s

end Sys2Proof.Machine
end

