-- ==== Sys2Proof/Machine/Step.lean ====
section
/-! DEFINITION. One step of the machine: the host's next event on an idle engine, one phase on a busy one
(spec/10_state.md R41, spec/20_memory.md R61, spec/70_reset_and_hazards.md R229, R232; log 1, log 3). -/

namespace Sys2Proof.Machine

/-- Why a presented word is refused (spec/30_encoding.md R78, R79). -/
def refusalOf : Request → Refusal
  | .cp _ | .pp _ => .reservedPinWord
  | .fe _ => .malformedRequest

/-- Run a presented request, if its port is the host's (spec/10_state.md R39). -/
def runRequest (r : Request) (s : State) : Host.Outcome State Fault Refusal :=
  if hostMayPresent s.cfg r then
    match decode r with
    | some i => exec i s
    | none => .refused (refusalOf r)
  else .refused .corePortInternal

/-- After a request that `rst` cut short or followed at once, the engine is reset (log 19). -/
def thenReset : Host.Outcome State Fault Refusal → Host.Outcome State Fault Refusal
  | .next s => .next (resetEngine s)
  | .fault r => .fault r
  | .refused r => .refused r

/-- One step. A request is taken up in `IDLE` only; in any other phase the engine performs that phase and the
host holds the request. `rst` is heard in every phase. With no event an idle engine stays as it is (R110). -/
def step (s : State) : Host.Outcome State Fault Refusal :=
  onEngine s
    (match s.host with
    | [] => .next (phaseStep s)
    | .rst :: rest => .next (resetEngine { s with host := rest })
    | .request r :: rest =>
      if s.ph = .idle then runRequest r { s with host := rest, rstIn := none } else .next (phaseStep s)
    | .cut r phases :: rest =>
      if s.ph = .idle then thenReset (runRequest r { s with host := rest, rstIn := some phases })
      else .next (phaseStep s))

/-- The machine about to take up one request from the host: the word is presented next, the engine is in the phase
that accepts, and the instance is one whose host owns that word's port (log 3, log 14). -/
def State.withFetchWord (s : State) (nbits w : Nat) : State :=
  { s with
    cfg := { s.cfg with hasFe := portHasFrontEnd s.cfg (tableRequest nbits w) },
    host := .request (tableRequest nbits w) :: s.host, ph := .idle }

end Sys2Proof.Machine
end

