-- ==== Sys2Proof/Machine/Bus.lean ====
section
/-! DEFINITION. What the controller and the host see of a history: strobes and bus transactions
(spec/20_memory.md R59), counts of pin operations (spec/40_bus_framing.md R109), lower bounds of durations
(spec/70_reset_and_hazards.md R231). Read off the history only; the machine never asks. -/

namespace Sys2Proof.Machine

/-! ## Strobes -/

/-- The value on the data lines at a strobe (R59). -/
inductive BusValue where
  /-- the engine side drives the lines, `DOE = 1`: their `BUSW`-bit value -/
  | engine (v : BitVec 8)
  /-- the controller drives them, `DOE = 0`: of its value the engine knows the busy flag, if a `READPIN` of the top
  data line inside the strobe sampled it -/
  | controller (flag : Option Bit)
  deriving DecidableEq, Repr

/-- What a strobe carries (R59): `L[RS]`, `L[RW]` (`LVL_WRITE` if the line is not connected), the data lines. -/
structure Strobe where
  rs : Bit
  rw : Bit
  data : BusValue
  deriving DecidableEq, Repr

/-- The `BUSW` data lines as a number. -/
def busValue (w : BusWidth) (dl : BitVec 8) : BitVec 8 :=
  match w with
  | .eight => dl
  | .four => dl &&& 0x0F#8

/-- What a strobe whose first transaction is this moment carries. -/
def carried (c : Config) (m : Moment) : Strobe where
  rs := m.lines.rs
  rw := if c.rwPresent then m.lines.rw else c.lvlWrite
  data := if m.doe then .engine (busValue c.busw m.lines.dl) else .controller none

/-- The busy flag was sampled inside the strobe. -/
def Strobe.sampled (b : Bit) (s : Strobe) : Strobe :=
  match s.data with
  | .engine _ => s
  | .controller _ => { s with data := .controller (some b) }

/-- How far a strobe in progress has come. -/
inductive Pulse where
  /-- none in progress -/
  | low
  /-- `E` driven to active, `W(T_PW)` still to come -/
  | raised (s : Strobe)
  /-- `W(T_PW)` done -/
  | timed (s : Strobe)
  deriving DecidableEq, Repr

/-- The effect of one event on a strobe in progress: `E` to active opens one, `W(T_PW)` must follow, then possibly a
`READPIN`; anything else ends it unfinished (R59). -/
def Pulse.after (c : Config) (p : Pulse) (m : Moment) : Pulse :=
  match m.event, p with
  | .wrote .e level, _ => if level = c.lvlEAct then .raised (carried c m) else .low
  | .waited .tPw, .raised s => .timed s
  | .readBit id b, .timed s => if id = .dl (topLine c.busw) then .timed (s.sampled b) else .timed s
  | _, _ => .low

/-- The strobe that ends with this moment: `E` driven to idle after `W(T_PW)`. -/
def Pulse.finished (c : Config) (p : Pulse) (m : Moment) : Option Strobe :=
  match m.event, p with
  | .wrote .e level, .timed s => if level = c.lvlEIdle then some s else none
  | _, _ => none

/-- The strobes of a history, `p` being in progress before it. -/
def strobesFrom (c : Config) : Pulse → List Moment → List Strobe
  | _, [] => []
  | p, m :: rest => (p.finished c m).toList ++ strobesFrom c (p.after c m) rest

/-- The strobes of a history, in order. -/
def strobes (c : Config) (h : List Moment) : List Strobe := strobesFrom c .low h

/-! ## Bus transactions -/

/-- One strobe on an 8-bit bus, two consecutive strobes on a 4-bit bus, the first giving bits 7:4 (R59). -/
inductive BusTransaction where
  | whole (s : Strobe)
  | pair (high low : Strobe)
  deriving DecidableEq, Repr

/-- The bus transactions of a list of strobes; an odd last strobe on a 4-bit bus makes none. -/
def transactions : BusWidth → List Strobe → List BusTransaction
  | .eight, s :: rest => .whole s :: transactions .eight rest
  | .four, high :: low :: rest => .pair high low :: transactions .four rest
  | .eight, [] => []
  | .four, [] => []
  | .four, [_] => []

/-- The register-select level and the byte of a transaction whose data the engine drove. -/
def BusTransaction.sent : BusTransaction → Option (Bit × Byte)
  | .whole ⟨rs, _, .engine v⟩ => some (rs, v)
  | .pair ⟨rs, _, .engine high⟩ ⟨_, _, .engine low⟩ => some (rs, (high <<< 4) ||| low)
  | .whole ⟨_, _, .controller _⟩ => none
  | .pair ⟨_, _, .controller _⟩ _ => none
  | .pair _ ⟨_, _, .controller _⟩ => none

/-- The bytes the engine sent. -/
def bytesSent (w : BusWidth) (ss : List Strobe) : List (Bit × Byte) :=
  (transactions w ss).filterMap BusTransaction.sent

/-! ## Counts and durations -/

/-- A pin operation: every `S`, `C` and `R`, failed ones too; waits do not count (spec/00_scope.md R11). -/
def Event.isPinOperation : Event → Bool
  | .wrote _ _ | .writeFailed _ _ | .readBit _ _ | .readFailed _ => true
  | .waited _ => false

/-- The transaction answered `fail`. -/
def Event.isFailure : Event → Bool
  | .writeFailed _ _ | .readFailed _ => true
  | .wrote _ _ | .readBit _ _ | .waited _ => false

/-- The pin an event names. -/
def Event.pin : Event → Option PinId
  | .wrote id _ | .writeFailed id _ | .readBit id _ | .readFailed id => some id
  | .waited _ => none

/-- The bit a read delivered. -/
def Event.answer : Event → Option Bit
  | .readBit _ b => some b
  | .wrote _ _ | .writeFailed _ _ | .readFailed _ | .waited _ => none

/-- Number of pin operations of a trace. -/
def pinOperations (tr : List Event) : Nat := tr.countP Event.isPinOperation

/-- The bits the reads of a trace delivered, in order. -/
def answersIn (tr : List Event) : List Bit := tr.filterMap Event.answer

/-- Ticks the waits of a trace take at least (R231). -/
def ticksAtLeast (c : Config) : List Event → Nat
  | [] => 0
  | .waited t :: rest => waitTicks c t + ticksAtLeast c rest
  | .wrote _ _ :: rest | .writeFailed _ _ :: rest | .readBit _ _ :: rest | .readFailed _ :: rest =>
    ticksAtLeast c rest

end Sys2Proof.Machine
end

