-- ==== Sys2Proof/Safety.lean ====
section
/-! DEFINITION. What claims call a good state and a run: the engine's invariant and the states steps reach. -/

namespace Sys2Proof.Machine

/-- Phases of a transfer in progress, from acceptance to the settle's end (spec/10_state.md R40). -/
def Phase.inTransfer : Phase → Bool
  | .idle | .done => false
  | .fRs | .fRw | .fData | .fSetup | .fEhi | .fPw | .fElo | .fHold | .sDelay | .pRs | .pRw | .pSetup
  | .pEhi | .pPw | .pRead | .pElo | .pHold | .pEhi2 | .pPw2 | .pElo2 | .pHold2 | .pTest => true

/-- Phases entered only when `RW_PRESENT` (spec/40_bus_framing.md R97, spec/41_transfer_sequencer.md R116). -/
def Phase.needsRw : Phase → Bool
  | .fRw | .pRs | .pRw | .pSetup | .pEhi | .pPw | .pRead | .pElo | .pHold | .pEhi2 | .pPw2 | .pElo2
  | .pHold2 | .pTest => true
  | .idle | .fRs | .fData | .fSetup | .fEhi | .fPw | .fElo | .fHold | .sDelay | .done => false

/-- Phases of the poll after the data lines were released (spec/41_transfer_sequencer.md R116). -/
def Phase.released : Phase → Bool
  | .pRw | .pSetup | .pEhi | .pPw | .pRead | .pElo | .pHold | .pEhi2 | .pPw2 | .pElo2 | .pHold2 | .pTest => true
  | .idle | .fRs | .fRw | .fData | .fSetup | .fEhi | .fPw | .fElo | .fHold | .sDelay | .pRs | .done => false

/-- Phases of a framing after its first data line was written (spec/40_bus_framing.md R98). -/
def Phase.driven : Phase → Bool
  | .fSetup | .fEhi | .fPw | .fElo | .fHold => true
  | .idle | .fRs | .fRw | .fData | .sDelay | .pRs | .pRw | .pSetup | .pEhi | .pPw | .pRead | .pElo
  | .pHold | .pEhi2 | .pPw2 | .pElo2 | .pHold2 | .pTest | .done => false

/-- Phases of the second strobe of a 4-bit poll iteration (spec/41_transfer_sequencer.md R124). -/
def Phase.secondStrobe : Phase → Bool
  | .pEhi2 | .pPw2 | .pElo2 | .pHold2 => true
  | .idle | .fRs | .fRw | .fData | .fSetup | .fEhi | .fPw | .fElo | .fHold | .sDelay | .pRs | .pRw
  | .pSetup | .pEhi | .pPw | .pRead | .pElo | .pHold | .pTest | .done => false

/-- The engine's invariant between steps. -/
structure EngineInv (s : State) : Prop where
  /-- the configuration is one the spec is about (spec/00_scope.md R8) -/
  legal : legalConfig s.cfg = true
  /-- the cursor is in range whenever `IST = Ready` (spec/42_address_cursor.md R159, spec/10_state.md R32) -/
  cursor : s.ist = .ready → s.cur.line.toNat < s.cfg.lines ∧ s.cur.col.toNat ≤ s.cfg.cols
  /-- a request meets `Initializing` in no execution (R140) -/
  initSettled : s.ist ≠ .initializing
  /-- `DI` is `0 .. BUSW-1` (spec/10_state.md R23) -/
  lineIndex : s.di.val < busLines s.cfg.busw
  /-- `NIB` stays 0 on an 8-bit bus (R23) -/
  nibble : s.cfg.busw = .eight → s.nib = false
  /-- `PCNT` is `0 .. POLL_MAX` (R24) -/
  pollCount : s.pcnt ≤ s.cfg.pollMax
  /-- inside a transfer the bound is not yet reached (R125) -/
  pollLeft : s.ph.inTransfer = true → s.pcnt < s.cfg.pollMax
  /-- `RES` is `OK`, `PinFault` or `HardwareTimeout` (R26) -/
  result : s.res.isCore = true
  /-- read/write and poll phases only with a read/write line (R97, R116) -/
  rwPhases : s.ph.needsRw = true → s.cfg.rwPresent = true
  /-- the fixed delay only without one (R113) -/
  delayPhase : s.ph = .sDelay → s.cfg.rwPresent = false
  /-- the second strobe only on a 4-bit bus (R124) -/
  secondStrobe : s.ph.secondStrobe = true → s.cfg.busw = .four
  /-- the data lines are released throughout the poll (R116, R27) -/
  released : s.ph.released = true → s.doe = false
  /-- the engine drives them throughout the strobe of a framing (R98, R27) -/
  driven : s.ph.driven = true → s.doe = true
  /-- `F_RW` follows `F_RS`, which sets `DI` to 0 (R96, R97) -/
  firstLine : s.ph = .fRw → s.di = 0
  /-- from the second data line on the drivers are enabled (R98) -/
  drivenData : s.ph = .fData → s.di ≠ 0 → s.doe = true
  /-- no wait is in progress between phases (R95) -/
  timer : s.tmr = 0
  /-- the core port presents core statuses only (spec/30_encoding.md R76) -/
  coreStatuses : ∀ r ∈ s.coreResponses, r.isCore = true
  /-- the front-end port never presents `InvalidConfiguration` (R76) -/
  feStatuses : ∀ r ∈ s.feResponses, r.isFrontEnd = true

/-- What the platform has done, as far as spec/70_reset_and_hazards.md R213 asks; the engine sees none of it (log 21). -/
structure Platform where
  /-- pins configured so that `SETPIN` and `CLRPIN` drive the line, `DOE = 0` releases it and `READPIN` samples it -/
  configured : List PinId
  /-- the level at the controller's read/write input where the line is not connected -/
  rwInput : Bit
  /-- ticks since the controller's supply rose -/
  poweredFor : Nat
  /-- the controller's own power-on time, in ticks -/
  powerOnTime : Nat
  deriving DecidableEq, Repr

/-- Every pin of `REQPINS` is bound. -/
abbrev PinsBound (c : Config) : Prop := ∀ id ∈ reqPins c, bound c id = true

/-- The launch premises (a) to (d) of spec/70_reset_and_hazards.md R213. -/
structure LaunchPremises (p : Platform) (s : State) : Prop where
  /-- (a) every pin of `REQPINS` is bound and configured -/
  pins : PinsBound s.cfg ∧ ∀ id ∈ reqPins s.cfg, id ∈ p.configured
  /-- (b) the enable line is at `LVL_E_IDLE` -/
  enableIdle : s.lines.e = s.cfg.lvlEIdle
  /-- (c) without a read/write line the controller's input is tied to "write" -/
  rwTied : s.cfg.rwPresent = false → p.rwInput = s.cfg.lvlWrite
  /-- (d) the controller has had its power-on time -/
  poweredOn : p.powerOnTime ≤ p.poweredFor

/-- States that steps lead to from `s`. -/
inductive Reachable (s : State) : State → Prop where
  | start : Reachable s s
  | next {t u : State} : Reachable s t → step t = .next u → Reachable s u

/-- A freshly reset engine of a legal configuration, whatever the host will present and the pins will answer. -/
def FreshEngine (s : State) : Prop :=
  ∃ c host draws drawn, legalConfig c = true ∧
    s = { State.resetOf c with host := host, draws := draws, drawn := drawn }

end Sys2Proof.Machine
end

