-- ==== Sys2Proof/Certificates/Slice0/Obligations.lean ====
section
/-! DEFINITION. The statements for the provers, and the words of the spec they are written in: traces as
spec/40_bus_framing.md R106, R107 and spec/41_transfer_sequencer.md R127 list them, requests as sequences of core
requests, and the premises on a state. -/

namespace Sys2Proof.Spec

open Sys2Proof.Machine

/-! ## Premises -/

/-- An idle engine of a legal configuration, with no `rst` about to cut the request. -/
def Accepts (s : State) : Prop := legalConfig s.cfg = true ∧ s.ph = .idle ∧ s.rstIn = none

/-- As `Accepts`, on an instance with a front-end. -/
def FrontEndAccepts (s : State) : Prop := Accepts s ∧ s.cfg.hasFe = true

/-- The engine is about to perform phase `p`: no `rst` is asserted. -/
def Busy (p : Phase) (s : State) : Prop :=
  legalConfig s.cfg = true ∧ s.ph = p ∧ s.host.head? ≠ some .rst

/-- The premise `PinOk` (spec/93_implementation_defined.md U3) for the next `n` transactions, with every pin of
`REQPINS` bound (launch premise (a) of spec/70_reset_and_hazards.md R213). -/
def PinsAnswerOk (n : Nat) (s : State) : Prop :=
  PinsBound s.cfg ∧ ∀ k < n, (drawAt s k).fails = false

/-! ## Traces -/

/-- The core request of an `rs` and a byte (spec/30_encoding.md R71). -/
def coreInstr (rs : Bit) (b : Byte) : Instr := if rs then .wrd b else .wrc b

/-- `STROBE` (spec/40_bus_framing.md R105). -/
def strobeTrace (c : Config) : List Event :=
  [.wrote .e c.lvlEAct, .waited .tPw, .wrote .e c.lvlEIdle, .waited .tH]

/-- The pin trace of `EMIT(rs, b)` (spec/40_bus_framing.md R106 for 8 lines, R107 for 4). -/
def emitTrace (c : Config) (rs : Bit) (b : Byte) : List Event :=
  [.wrote .rs (if rs then c.lvlData else c.lvlCmd)] ++
  (if c.rwPresent then [.wrote .rw c.lvlWrite] else []) ++
  match c.busw with
  | .eight =>
    [.wrote (.dl 0) (b.getLsbD 0), .wrote (.dl 1) (b.getLsbD 1), .wrote (.dl 2) (b.getLsbD 2),
     .wrote (.dl 3) (b.getLsbD 3), .wrote (.dl 4) (b.getLsbD 4), .wrote (.dl 5) (b.getLsbD 5),
     .wrote (.dl 6) (b.getLsbD 6), .wrote (.dl 7) (b.getLsbD 7), .waited .tAs] ++ strobeTrace c
  | .four =>
    [.wrote (.dl 0) (b.getLsbD 4), .wrote (.dl 1) (b.getLsbD 5), .wrote (.dl 2) (b.getLsbD 6),
     .wrote (.dl 3) (b.getLsbD 7), .waited .tAs] ++ strobeTrace c ++
    [.wrote (.dl 0) (b.getLsbD 0), .wrote (.dl 1) (b.getLsbD 1), .wrote (.dl 2) (b.getLsbD 2),
     .wrote (.dl 3) (b.getLsbD 3), .waited .tAs] ++ strobeTrace c

/-- One iteration of the busy poll whose read delivers `b` (spec/41_transfer_sequencer.md R127). -/
def pollIteration (c : Config) (b : Bit) : List Event :=
  match c.busw with
  | .eight =>
    [.wrote .e c.lvlEAct, .waited .tPw, .readBit (.dl 7) b, .wrote .e c.lvlEIdle, .waited .tH]
  | .four =>
    [.wrote .e c.lvlEAct, .waited .tPw, .readBit (.dl 3) b, .wrote .e c.lvlEIdle, .waited .tH] ++ strobeTrace c

/-- The pin trace of a busy poll whose reads deliver `reads` (R127). -/
def pollTrace (c : Config) (reads : List Bit) : List Event :=
  [.wrote .rs c.lvlCmd, .wrote .rw c.lvlRead, .waited .tAs] ++ (reads.map (pollIteration c)).flatten

/-- The pin trace of a whole core request: `EMIT`, then the poll, or the fixed delay (R113, R114). -/
def requestTrace (c : Config) (rs : Bit) (b : Byte) (reads : List Bit) : List Event :=
  emitTrace c rs b ++
  if c.rwPresent then pollTrace c reads
  else [.waited (if rs = false ∧ b ∈ c.longCmd then .tLong else .tShort)]

/-- Pin operations of one `EMIT`: 11 or 12 on an 8-bit bus, 13 or 14 on a 4-bit bus (spec/40_bus_framing.md R109). -/
def emitOps (c : Config) : Nat :=
  match c.busw, c.rwPresent with
  | .eight, false => 11
  | .eight, true => 12
  | .four, false => 13
  | .four, true => 14

/-- Pin operations of one poll iteration: 3 or 5 (R127). -/
def iterationOps (c : Config) : Nat :=
  match c.busw with
  | .eight => 3
  | .four => 5

/-- The bit the pin abstraction will deliver to read number `j` (from 0) of the poll of the next request, if no
transaction fails: the transactions before it are the `EMIT`, `RS` and `RW`, `j` iterations and the strobe's start. -/
def busyAnswer (s : State) (j : Nat) : Bit :=
  (drawAt s (emitOps s.cfg + 2 + iterationOps s.cfg * j + 1)).bit

/-- An event with its answer turned into `fail`. -/
def failed : Event → Event
  | .wrote id v => .writeFailed id v
  | .readBit id _ => .readFailed id
  | .writeFailed id v => .writeFailed id v
  | .readFailed id => .readFailed id
  | .waited t => .waited t

/-- The strobes of a core request that was strobed in full and whose busy-flag reads delivered `reads` (spec/20_memory.md
R52, R59, spec/41_transfer_sequencer.md R127): the byte, then one strobe per poll iteration, two on a 4-bit bus. -/
def requestStrobes (c : Config) (rs : Bit) (b : Byte) (reads : List Bit) : List Strobe :=
  let level := if rs then c.lvlData else c.lvlCmd
  match c.busw with
  | .eight =>
    ⟨level, c.lvlWrite, .engine b⟩ :: reads.map fun r => ⟨c.lvlCmd, c.lvlRead, .controller (some r)⟩
  | .four =>
    ⟨level, c.lvlWrite, .engine (b >>> 4)⟩ :: ⟨level, c.lvlWrite, .engine (b &&& 0x0F#8)⟩ ::
      (reads.map fun r => [⟨c.lvlCmd, c.lvlRead, .controller (some r)⟩, ⟨c.lvlCmd, c.lvlRead, .controller none⟩]).flatten

/-- Every strobe of a history begins with a leading edge, `E` being at a level before it. -/
def leadingEdges (c : Config) : Bit → List Moment → Prop
  | _, [] => True
  | e, m :: rest => (m.event = .wrote .e c.lvlEAct → e = c.lvlEIdle) ∧ leadingEdges c m.lines.e rest

/-! ## Front-end requests as core requests -/

/-- The cursor at a line and a column. -/
def cell (line col : Nat) : Cursor := ⟨BitVec.ofNat 1 line, BitVec.ofNat 5 col⟩

/-- A front-end request ends with status `r` in state `s`. -/
def answer (r : Status) (s : State) : State := { s with feResponses := s.feResponses ++ [r] }

/-- `0x80 | ddram_addr(line, col)` in the naturals (spec/42_address_cursor.md R141, spec/43_glyph_format.md R164). -/
def ddramCommand (c : Config) (line col : Nat) : Byte :=
  BitVec.ofNat 8 (0x80 + ((c.lineOffset.getD line 0).toNat + col) % 128)

/-- Request `i` issues the one core request `core`; if that ends `OK` its effect is `commit` and its status `OK`,
otherwise it returns that status and commits nothing. -/
def IssuesOne (i core : Instr) (s : State) (commit : State → State) : Prop :=
  ∃ u, exec core s = .next u ∧
    exec i s = .next (if u.res = .ok then answer .ok (commit u) else answer u.res u)

/-- Core requests one after another until one does not end `OK`: how many ended `OK`, the last status, the state. -/
def issue : List Instr → State → Option (Nat × Status × State)
  | [], s => some (0, .ok, s)
  | i :: rest, s =>
    match exec i s with
    | .next u =>
      if u.res = .ok then
        match issue rest u with
        | some (n, r, v) => some (n + 1, r, v)
        | none => none
      else some (0, u.res, u)
    | .fault _ => none
    | .refused _ => none

/-- The string loop (spec/42_address_cursor.md R147) of request `i` from state `s`: at most the columns left are written, the cursor
counts the bytes written, the status is the last core request's. -/
def WritesText (i : Instr) (s₀ s : State) (text : List Byte) : Prop :=
  ∃ n r u, issue ((text.take (s.cfg.cols - s.cur.col.toNat)).map .wrd) s = some (n, r, u) ∧
    exec i s₀ = .next (answer r { u with cur := cell s.cur.line.toNat (s.cur.col.toNat + n) })

/-- The nineteen front-end requests but `INIT` (spec/60_exceptions.md R193). -/
def gated : Instr → Bool
  | .wrchar _ | .wrcharat _ _ _ | .wrstr _ | .wrstrat _ _ _ | .clear | .home | .shiftl | .shiftr
  | .setcursor _ _ | .dispon | .dispoff | .curon | .curoff | .blinkon | .blinkoff | .defglyph _ _
  | .wrglyph _ | .wrint _ => true
  | .wrc _ | .wrd _ | .clrpin _ | .setpin _ | .readpin _ | .init => false

/-- The requests that may change `CUR` (spec/10_state.md R32). -/
def movesCursor : Instr → Bool
  | .init | .wrchar _ | .wrcharat _ _ _ | .wrstr _ | .wrstrat _ _ _ | .clear | .home
  | .setcursor _ _ | .wrglyph _ | .wrint _ => true
  | .wrc _ | .wrd _ | .clrpin _ | .setpin _ | .readpin _ | .shiftl | .shiftr | .dispon | .dispoff | .curon
  | .curoff | .blinkon | .blinkoff | .defglyph _ _ => false

/-- The requests that may change `DCB` (spec/10_state.md R33). -/
def setsDisplay : Instr → Bool
  | .init | .dispon | .dispoff | .curon | .curoff | .blinkon | .blinkoff => true
  | .wrc _ | .wrd _ | .clrpin _ | .setpin _ | .readpin _ | .wrchar _ | .wrcharat _ _ _ | .wrstr _
  | .wrstrat _ _ _ | .clear | .home | .shiftl | .shiftr | .setcursor _ _ | .defglyph _ _
  | .wrglyph _ | .wrint _ => false

/-- The new `DCB` of the six display-control requests (spec/42_address_cursor.md R153 to R158). -/
def newDcb (dcb : BitVec 3) : Instr → Option (BitVec 3)
  | .dispon => some (dcb ||| 0b100#3)
  | .dispoff => some (dcb &&& 0b011#3)
  | .curon => some (dcb ||| 0b010#3)
  | .curoff => some (dcb &&& 0b101#3)
  | .blinkon => some (dcb ||| 0b001#3)
  | .blinkoff => some (dcb &&& 0b110#3)
  | .wrc _ | .wrd _ | .clrpin _ | .setpin _ | .readpin _ | .init | .wrchar _ | .wrcharat _ _ _ | .wrstr _
  | .wrstrat _ _ _ | .clear | .home | .shiftl | .shiftr | .setcursor _ _ | .defglyph _ _
  | .wrglyph _ | .wrint _ => none

/-- The number written by decimal digits in ASCII. -/
def digitsValue (ds : List Byte) : Nat := ds.foldl (fun n d => 10 * n + (d.toNat - 0x30)) 0

/-- The length of a front-end request by its first byte, and its `len` byte for opcodes 0x03 and 0x04
(spec/30_encoding.md R74, R80); none if there is no such byte or the opcode is reserved (R79). -/
def requestLength (bytes : List Byte) : Option Nat :=
  match bytes.head?.map BitVec.toNat with
  | none => none
  | some 0x00 => some 1
  | some 0x01 => some 2
  | some 0x02 => some 4
  | some 0x03 => bytes[1]?.map fun len => 2 + len.toNat
  | some 0x04 => bytes[3]?.map fun len => 4 + len.toNat
  | some 0x05 => some 1
  | some 0x06 => some 1
  | some 0x07 => some 1
  | some 0x08 => some 1
  | some 0x09 => some 3
  | some 0x0A => some 1
  | some 0x0B => some 1
  | some 0x0C => some 1
  | some 0x0D => some 1
  | some 0x0E => some 1
  | some 0x0F => some 1
  | some 0x10 => some 10
  | some 0x11 => some 2
  | some 0x12 => some 5
  | some _ => none

/-! ## Phases -/

/-- The wait phases with one exit: the parameter and the next phase (spec/40_bus_framing.md R99, R101,
spec/41_transfer_sequencer.md R118, R120, R123, R124). -/
def waitRow (c : Config) : Phase → Option (WaitParam × Phase)
  | .fSetup => some (.tAs, .fEhi)
  | .fPw => some (.tPw, .fElo)
  | .pSetup => some (.tAs, .pEhi)
  | .pPw => some (.tPw, .pRead)
  | .pHold => some (.tH, if c.busw = .four then .pEhi2 else .pTest)
  | .pPw2 => some (.tPw, .pElo2)
  | .pHold2 => some (.tH, .pTest)
  | .idle | .fRs | .fRw | .fData | .fEhi | .fElo | .fHold | .sDelay | .pRs | .pRw | .pEhi | .pRead | .pElo
  | .pEhi2 | .pElo2 | .pTest | .done => none

/-- The pin phases that write `RS`, `RW` or `E`: pin, level, next phase (spec/40_bus_framing.md R96, R97, R100, R102,
spec/41_transfer_sequencer.md R116, R117, R119, R122, R124). -/
def controlRow (c : Config) (rs : Bit) : Phase → Option (PinId × Bit × Phase)
  | .fRs => some (.rs, (if rs then c.lvlData else c.lvlCmd), if c.rwPresent then .fRw else .fData)
  | .fRw => some (.rw, c.lvlWrite, .fData)
  | .fEhi => some (.e, c.lvlEAct, .fPw)
  | .fElo => some (.e, c.lvlEIdle, .fHold)
  | .pRs => some (.rs, c.lvlCmd, .pRw)
  | .pRw => some (.rw, c.lvlRead, .pSetup)
  | .pEhi => some (.e, c.lvlEAct, .pPw)
  | .pElo => some (.e, c.lvlEIdle, .pHold)
  | .pEhi2 => some (.e, c.lvlEAct, .pPw2)
  | .pElo2 => some (.e, c.lvlEIdle, .pHold2)
  | .idle | .fData | .fSetup | .fPw | .fHold | .sDelay | .pSetup | .pPw | .pRead | .pHold | .pPw2 | .pHold2
  | .pTest | .done => none

/-- The event of the transaction a pin phase performs, if it answers `ok`. -/
def pinEvent (s : State) : Option Event :=
  match s.ph with
  | .fData =>
    some (.wrote (.dl s.di)
      (match s.cfg.busw, s.nib with
      | .eight, _ => s.reqByte.getLsbD s.di.val
      | .four, false => decide (s.di.val < 4) && s.reqByte.getLsbD (s.di.val + 4)
      | .four, true => decide (s.di.val < 4) && s.reqByte.getLsbD s.di.val))
  | .pRead => some (.readBit (.dl (topLine s.cfg.busw)) (drawAt s 0).bit)
  | p =>
    match controlRow s.cfg s.reqRs p with
    | some (id, v, _) => some (.wrote id v)
    | none => none

/-- Engine and controller cannot both drive the data lines: whenever the engine drives them, and in every phase that
leads to driving them, read/write says "write". -/
def WriteBeforeDrive (s : State) : Prop :=
  (s.doe = true → s.lines.rw = s.cfg.lvlWrite) ∧
  (s.ph ∈ [Phase.fData, .fSetup, .fEhi, .fPw, .fElo, .fHold] → s.lines.rw = s.cfg.lvlWrite)

end Sys2Proof.Spec

open Sys2Proof Sys2Proof.Machine Sys2Proof.Spec

/-! ## Reset, construction, encodings -/

/-- Every register with a reset value in spec/10_state.md R38 has it, for an engine of any configuration. -/
def Obligations.ResetLeavesStatedValues : Prop :=
  ∀ c : Config, (State.resetOf c).ph = .idle ∧ (State.resetOf c).doe = false ∧ (State.resetOf c).di = 0 ∧
    (State.resetOf c).nib = false ∧ (State.resetOf c).pcnt = 0 ∧ (State.resetOf c).tmr = 0 ∧
    (State.resetOf c).ist = .uninitialized ∧ (State.resetOf c).cfg = c ∧ (State.resetOf c).trace = []

/-- `rst` is heard in every phase and puts the engine in its reset state without a pin operation or a wait; the
lines and the configuration stay, and the request in progress gets no response (spec/70_reset_and_hazards.md R210 to
R212, R229). That the history and the statuses already presented stay is the model's choice (log 6). -/
def Obligations.RstResetsWithoutPinOperation : Prop :=
  ∀ (s : State) (rest : List HostEvent), legalConfig s.cfg = true → s.host = .rst :: rest →
    ∃ t, step s = .next t ∧ t.ph = .idle ∧ t.doe = false ∧ t.di = 0 ∧ t.nib = false ∧ t.pcnt = 0 ∧ t.tmr = 0 ∧
      t.ist = .uninitialized ∧ t.cfg = s.cfg ∧ t.history = s.history ∧ t.lines = s.lines ∧
      t.coreResponses = s.coreResponses ∧ t.feResponses = s.feResponses ∧ t.host = rest

/-- A configuration that fails one of V1 to V6 of spec/44_init_validation.md R170 has no engine: construction answers
`InvalidConfiguration`, and nothing runs (R171). One that meets them and the stated parameter ranges has an engine in its
reset state. Which ranges those are beside `POLL_MAX ≥ 1` and `T_LONG > T_SHORT`, and that a valid configuration outside
them is refused, is the model's choice (log 13). -/
def Obligations.ConstructionFollowsValidation : Prop :=
  ∀ c : Config,
    let v := (c.lines = 1 ∨ c.lines = 2) ∧ (c.cols = 8 ∨ c.cols = 16 ∨ c.cols = 20) ∧
      c.funcsetCmd.toNat / 32 = 1 ∧ (c.funcsetCmd.getLsbD 4 = true ↔ c.busw = .eight) ∧
      (c.funcsetCmd.getLsbD 3 = true ↔ c.lines = 2) ∧ c.entryCmd ∈ c.entrySet ∧ c.displayCmd ∈ c.displaySet
    let ranges := 1 ≤ c.pollMax ∧ c.tShort < c.tLong ∧ c.lineOffset.length = c.lines ∧ 0x01 ∈ c.longCmd ∧
      0x02 ∈ c.longCmd ∧ c.lvlCmd ≠ c.lvlData ∧ c.lvlWrite ≠ c.lvlRead ∧ c.lvlEAct ≠ c.lvlEIdle
    (¬ v → construct c = .invalidConfiguration ∧
      ∀ (s : State) (i : Instr), s.cfg = c →
        step s = .fault .invalidConfiguration ∧ exec i s = .fault .invalidConfiguration) ∧
    (v → ranges → construct c = .engine (State.resetOf c)) ∧
    (v → ¬ ranges → construct c = .outsideSpec ∧
      ∀ (s : State) (i : Instr), s.cfg = c →
        step s = .refused .configurationOutsideSpec ∧ exec i s = .refused .configurationOutsideSpec)

/-- The valid function-set commands of each bus width and line count are the eight the spec lists
(spec/44_init_validation.md R170). -/
def Obligations.ValidFunctionSetRanges : Prop :=
  ∀ c : Config, valid c = true →
    (c.busw = .four → c.lines = 1 → 0x20 ≤ c.funcsetCmd.toNat ∧ c.funcsetCmd.toNat ≤ 0x27) ∧
    (c.busw = .four → c.lines = 2 → 0x28 ≤ c.funcsetCmd.toNat ∧ c.funcsetCmd.toNat ≤ 0x2F) ∧
    (c.busw = .eight → c.lines = 1 → 0x30 ≤ c.funcsetCmd.toNat ∧ c.funcsetCmd.toNat ≤ 0x37) ∧
    (c.busw = .eight → c.lines = 2 → 0x38 ≤ c.funcsetCmd.toNat ∧ c.funcsetCmd.toNat ≤ 0x3F)

/-- Every well-formed instruction is the one its word decodes to. -/
def Obligations.DecodeOfEncodeIsIdentity : Prop :=
  ∀ i : Instr, i.wellFormed = true → decode (encode i) = some i

/-- Every word that decodes is the encoding of the well-formed instruction it decodes to: no two words share one. -/
def Obligations.EncodeOfDecodeIsIdentity : Prop :=
  ∀ (r : Request) (i : Instr), decode r = some i → i.wellFormed = true ∧ encode i = r

/-- A few words of spec/95_test_vectors.md V1, V32 and V33. -/
def Obligations.SampleWordsDecode : Prop :=
  decode (.cp 0x1A5) = some (.wrd 0xA5) ∧ decode (.cp 0x001) = some (.wrc 0x01) ∧
  decode (.pp 0x12) = some (.setpin .e) ∧ decode (.pp 0x09) = some (.clrpin (.dl 1)) ∧
  decode (.pp 0x2F) = some (.readpin (.dl 7)) ∧ decode (.fe [0x09, 0x01, 0x05]) = some (.setcursor 1 5) ∧
  decode (.fe [0x03, 0x02, 0x48, 0x69]) = some (.wrstr [0x48, 0x69]) ∧
  decode (.fe [0x12, 0xFF, 0xFF, 0xFF, 0xD6]) = some (.wrint (BitVec.ofInt 32 (-42))) ∧
  decode (.fe [0x00]) = some .init ∧ decode (.fe [0x03, 0x05, 0x48, 0x69]) = none

/-- A front-end request decodes exactly when its first byte is no reserved opcode and its length is the one rule R74
gives it; the engine refuses every other one (spec/30_encoding.md R79, R80). -/
def Obligations.FrontEndRequestLengths : Prop :=
  ∀ bytes : List Byte,
    (decode (.fe bytes) = none ↔ requestLength bytes ≠ some bytes.length) ∧
    ∀ (s : State) (rest : List HostEvent), legalConfig s.cfg = true → s.ph = .idle →
      s.host = .request (.fe bytes) :: rest → requestLength bytes ≠ some bytes.length →
      step s = .refused .malformedRequest

/-- Pin words with `op = 11` or an unused identifier have no instruction and a step refuses them, and DL4 to DL7 on a 4-bit
bus are refused (spec/30_encoding.md R78, which gives such words no meaning; the refusal is the model's, log 9, log 12). -/
def Obligations.ReservedPinWordsRefused : Prop :=
  (∀ w : BitVec 6, decode (.pp w) = none ↔
    w.toNat / 16 = 3 ∨ (3 ≤ w.toNat % 16 ∧ w.toNat % 16 ≤ 7)) ∧
  (∀ (s : State) (w : BitVec 6) (rest : List HostEvent), legalConfig s.cfg = true → s.ph = .idle →
    s.host = .request (.pp w) :: rest → w.toNat / 16 = 3 ∨ (3 ≤ w.toNat % 16 ∧ w.toNat % 16 ≤ 7) →
    step s = .refused .reservedPinWord) ∧
  ∀ (s : State) (i : Fin 8), legalConfig s.cfg = true → s.cfg.busw = .four → 4 ≤ i.val →
    exec (.setpin (.dl i)) s = .refused .reservedPinWord ∧
    exec (.clrpin (.dl i)) s = .refused .reservedPinWord ∧
    exec (.readpin (.dl i)) s = .refused .reservedPinWord

/-! ## Steps -/

/-- A step of an idle engine runs the instruction the presented word decodes to, with the word taken from the host; but
a core word on an instance with a front-end is refused, its port being internal (spec/10_state.md R39, log 11). That the
host may put words to the pin port is the model's choice (log 12). -/
def Obligations.StepRunsDecodedRequest : Prop :=
  ∀ (s : State) (r : Request) (rest : List HostEvent) (i : Instr), legalConfig s.cfg = true → s.ph = .idle →
    s.host = .request r :: rest → decode r = some i →
    (¬ (s.cfg.hasFe = true ∧ ∃ w, r = .cp w) → step s = exec i { s with host := rest, rstIn := none }) ∧
    (s.cfg.hasFe = true → (∃ w, r = .cp w) → step s = .refused .corePortInternal)

/-- A request presented while the engine is busy is held: the step performs the phase `PH` names and the host's events
stay; an idle engine with nothing presented stays as it is (spec/20_memory.md R61, spec/41_transfer_sequencer.md R110). -/
def Obligations.BusyEngineHoldsRequests : Prop :=
  ∀ s : State, legalConfig s.cfg = true →
    (s.ph ≠ .idle → s.host.head? ≠ some .rst →
      ∃ t, step s = .next t ∧ t.host = s.host ∧ step { s with host := [] } = .next { t with host := [] }) ∧
    (s.ph = .idle → s.host = [] → step s = .next s)

/-- One whole core request is what the phases give when run one by one from acceptance until the engine is idle again
(spec/10_state.md R41), whatever the host presents meanwhile but `rst`. -/
def Obligations.WholeRequestAgreesWithPhases : Prop :=
  ∀ (s : State) (rs : Bit) (b : Byte), Accepts s → s.host.head? ≠ some .rst →
    ∃ n t, exec (coreInstr rs b) s = .next t ∧ core.run n (accept rs b s) = .next t ∧ t.ph = .idle ∧
      ∀ m < n, ∃ u, core.run m (accept rs b s) = .next u ∧ u.ph ≠ .idle

/-! ## Core requests -/

/-- Every accepted core request ends, with a core status presented exactly once, after a bounded number of pin
operations; it ends `PinFault` exactly when one of them failed, and never `HardwareTimeout` without a read/write line
(spec/41_transfer_sequencer.md R126, R130, spec/60_exceptions.md R191, R192). -/
def Obligations.EveryCoreRequestIsAnswered : Prop :=
  ∀ (s : State) (rs : Bit) (b : Byte), Accepts s →
    ∃ t new, exec (coreInstr rs b) s = .next t ∧ t.ph = .idle ∧ t.trace = s.trace ++ new ∧
      t.res.isCore = true ∧ t.coreResponses = s.coreResponses ++ [t.res] ∧
      (t.res = .pinFault ↔ ∃ e ∈ new, e.isFailure = true) ∧
      (s.cfg.rwPresent = false → t.res ≠ .hardwareTimeout) ∧
      (s.cfg.busw = .eight → pinOperations new ≤ 12 + 2 + 3 * s.cfg.pollMax) ∧
      (s.cfg.busw = .four → pinOperations new ≤ 14 + 2 + 5 * s.cfg.pollMax)

/-- Without a read/write line and with every transaction answering `ok`: the trace of `EMIT` (spec/40_bus_framing.md
R106, R107), then the fixed delay (spec/41_transfer_sequencer.md R114), status `OK`, and the lines and registers as R132
says. -/
def Obligations.FixedDelayTransfer : Prop :=
  ∀ (s : State) (rs : Bit) (b : Byte), Accepts s → s.cfg.rwPresent = false → PinsAnswerOk (emitOps s.cfg) s →
    ∃ t, exec (coreInstr rs b) s = .next t ∧ t.trace = s.trace ++ requestTrace s.cfg rs b [] ∧ t.ph = .idle ∧
      t.res = .ok ∧ t.coreResponses = s.coreResponses ++ [.ok] ∧ t.doe = true ∧ t.reqRs = rs ∧ t.reqByte = b ∧
      t.lines.rs = (if rs then s.cfg.lvlData else s.cfg.lvlCmd) ∧ t.lines.rw = s.lines.rw ∧
      t.lines.e = s.cfg.lvlEIdle ∧
      ∀ i : Fin 8, t.lines.dl.getLsbD i.val =
        if i.val < busLines s.cfg.busw then b.getLsbD i.val else s.lines.dl.getLsbD i.val

/-- With a read/write line, every transaction answering `ok` and read number `k` the first that is not busy: the trace of
R127, status `OK` after exactly `k` reads, and lines and registers as R132 says. -/
def Obligations.BusyPollEndsOk : Prop :=
  ∀ (s : State) (rs : Bit) (b : Byte) (k : Nat), Accepts s → s.cfg.rwPresent = true →
    k < s.cfg.pollMax → PinsAnswerOk (emitOps s.cfg + 2 + iterationOps s.cfg * (k + 1)) s →
    (∀ j < k, busyAnswer s j = s.cfg.busy) → busyAnswer s k ≠ s.cfg.busy →
    ∃ t, exec (coreInstr rs b) s = .next t ∧
      t.trace = s.trace ++ requestTrace s.cfg rs b (List.replicate k s.cfg.busy ++ [!s.cfg.busy]) ∧
      t.ph = .idle ∧ t.res = .ok ∧ t.coreResponses = s.coreResponses ++ [.ok] ∧ t.pcnt = k + 1 ∧
      t.bfs = !s.cfg.busy ∧ t.doe = false ∧ t.lines.rs = s.cfg.lvlCmd ∧ t.lines.rw = s.cfg.lvlRead ∧
      t.lines.e = s.cfg.lvlEIdle

/-- With a read/write line, every transaction answering `ok` and `POLL_MAX` busy answers: the transfer is strobed in full,
the poll reads `POLL_MAX` times, status `HardwareTimeout`, no clean-up (spec/41_transfer_sequencer.md R125,
spec/60_exceptions.md R192). -/
def Obligations.BusyPollTimesOut : Prop :=
  ∀ (s : State) (rs : Bit) (b : Byte), Accepts s → s.cfg.rwPresent = true →
    PinsAnswerOk (emitOps s.cfg + 2 + iterationOps s.cfg * s.cfg.pollMax) s →
    (∀ j < s.cfg.pollMax, busyAnswer s j = s.cfg.busy) →
    ∃ t, exec (coreInstr rs b) s = .next t ∧
      t.trace = s.trace ++ requestTrace s.cfg rs b (List.replicate s.cfg.pollMax s.cfg.busy) ∧
      t.ph = .idle ∧ t.res = .hardwareTimeout ∧ t.coreResponses = s.coreResponses ++ [.hardwareTimeout] ∧
      t.pcnt = s.cfg.pollMax ∧ t.doe = false ∧ t.lines.rs = s.cfg.lvlCmd ∧ t.lines.rw = s.cfg.lvlRead ∧
      t.lines.e = s.cfg.lvlEIdle

/-- The pin trace of a request that ends `PinFault` is a prefix of a trace the request could have without the failure,
ending with the failed transaction, and no other transaction of it failed (spec/60_exceptions.md R196). -/
def Obligations.PinFaultTraceIsPrefix : Prop :=
  ∀ (s t : State) (rs : Bit) (b : Byte), Accepts s → exec (coreInstr rs b) s = .next t → t.res = .pinFault →
    ∃ (before : List Event) (e : Event) (reads : List Bit),
      t.trace = s.trace ++ before ++ [failed e] ∧ e.isPinOperation = true ∧
      (∀ x ∈ before, x.isFailure = false) ∧ reads.length ≤ s.cfg.pollMax ∧
      (∀ x ∈ reads.dropLast, x = s.cfg.busy) ∧ before ++ [e] <+: requestTrace s.cfg rs b reads

/-- The strobes of a request that does not end `PinFault`: one with the whole byte on an 8-bit bus, two on a 4-bit bus, high
nibble first, then those of the poll, in which the controller drives; the engine sends that byte and no other
(spec/20_memory.md R52, R59). With the enable line idle at the start (launch premise (b) of
spec/70_reset_and_hazards.md R213) every strobe begins with a leading edge. -/
def Obligations.StrobesCarryTheByte : Prop :=
  ∀ (s t : State) (rs : Bit) (b : Byte), Accepts s → exec (coreInstr rs b) s = .next t → t.res ≠ .pinFault →
    ∃ new, t.history = s.history ++ new ∧
      strobes s.cfg new = requestStrobes s.cfg rs b (answersIn (new.map Moment.event)) ∧
      bytesSent s.cfg.busw (strobes s.cfg new) = [(if rs then s.cfg.lvlData else s.cfg.lvlCmd, b)] ∧
      ∀ p : Platform, LaunchPremises p s → leadingEdges s.cfg s.lines.e new

/-- Pin operations of a successful request; with a read/write line, read number `PCNT` is the first that is not busy
(spec/41_transfer_sequencer.md R131). -/
def Obligations.SuccessfulRequestPinCounts : Prop :=
  ∀ (s t : State) (rs : Bit) (b : Byte), Accepts s → exec (coreInstr rs b) s = .next t → t.res = .ok →
    ∃ new, t.trace = s.trace ++ new ∧
      (s.cfg.rwPresent = false → s.cfg.busw = .eight → pinOperations new = 11) ∧
      (s.cfg.rwPresent = false → s.cfg.busw = .four → pinOperations new = 13) ∧
      (s.cfg.rwPresent = true → 1 ≤ t.pcnt ∧ t.pcnt ≤ s.cfg.pollMax ∧
        answersIn new = List.replicate (t.pcnt - 1) s.cfg.busy ++ [!s.cfg.busy]) ∧
      (s.cfg.rwPresent = true → s.cfg.busw = .eight → pinOperations new = 12 + 2 + 3 * t.pcnt) ∧
      (s.cfg.rwPresent = true → s.cfg.busw = .four → pinOperations new = 14 + 2 + 5 * t.pcnt)

/-- The waits of a request that does not end `PinFault` add up to the lower bound of spec/70_reset_and_hazards.md R231. -/
def Obligations.RequestDurationLowerBound : Prop :=
  ∀ (s t : State) (rs : Bit) (b : Byte), Accepts s → exec (coreInstr rs b) s = .next t → t.res ≠ .pinFault →
    ∃ new, t.trace = s.trace ++ new ∧
      let framing := s.cfg.tAs + s.cfg.tPw + s.cfg.tH
      let n := match s.cfg.busw with
        | .eight => 1
        | .four => 2
      (s.cfg.rwPresent = false → ticksAtLeast s.cfg new =
        n * framing + if rs = false ∧ b ∈ s.cfg.longCmd then s.cfg.tLong else s.cfg.tShort) ∧
      (s.cfg.rwPresent = true → ticksAtLeast s.cfg new =
        n * framing + s.cfg.tAs + t.pcnt * (n * (s.cfg.tPw + s.cfg.tH)))

/-- The core does not know the front-end's state: with other `IST`, `CUR`, `DCB` and front-end statuses a core request
does the same and leaves those as they were (spec/41_transfer_sequencer.md R133, spec/60_exceptions.md R204). -/
def Obligations.CoreIgnoresFrontEndState : Prop :=
  ∀ (s t : State) (rs : Bit) (b : Byte) (ist : InitState) (cur : Cursor) (dcb : BitVec 3) (fe : List Status),
    Accepts s → exec (coreInstr rs b) s = .next t →
    exec (coreInstr rs b) { s with ist := ist, cur := cur, dcb := dcb, feResponses := fe } =
      .next { t with ist := ist, cur := cur, dcb := dcb, feResponses := fe }

/-- No transfer depends on a line level or a core register left by an earlier request or by reset: two engines of one
configuration that meet the same pin answers do the same pin operations and waits and end with the same status, the same
core registers and the same levels on the lines they wrote (spec/40_bus_framing.md R108, spec/10_state.md R20). -/
def Obligations.TransferIgnoresHistory : Prop :=
  ∀ (s₁ s₂ t₁ : State) (rs : Bit) (b : Byte), Accepts s₁ → Accepts s₂ → s₁.cfg = s₂.cfg →
    s₁.draws = s₂.draws → s₁.drawn = s₂.drawn → exec (coreInstr rs b) s₁ = .next t₁ →
    ∃ t₂ new, exec (coreInstr rs b) s₂ = .next t₂ ∧ t₁.trace = s₁.trace ++ new ∧ t₂.trace = s₂.trace ++ new ∧
      t₁.res = t₂.res ∧ t₁.pcnt = t₂.pcnt ∧ t₁.di = t₂.di ∧ t₁.nib = t₂.nib ∧ t₁.draws = t₂.draws ∧
      t₁.drawn = t₂.drawn ∧
      ∀ e ∈ new, ∀ id v, e = .wrote id v → lineLevel t₁.lines id = lineLevel t₂.lines id

/-- Frame of `WRC` and `WRD`: nothing but the core's working registers, the lines, the trace, the core statuses and
the pin answers changes. -/
def Obligations.CoreRequestFrame : Prop :=
  ∀ (s t : State) (rs : Bit) (b : Byte), exec (coreInstr rs b) s = .next t →
    t.cfg = s.cfg ∧ t.ist = s.ist ∧ t.cur = s.cur ∧ t.dcb = s.dcb ∧ t.feResponses = s.feResponses ∧
    t.host = s.host

/-- A core request names and changes only the pins of `REQPINS`: in particular never `RW` when it is not connected, and
never DL4 to DL7 on a 4-bit bus (spec/00_scope.md R6, spec/40_bus_framing.md R97). -/
def Obligations.OnlyRequiredPinsAreNamed : Prop :=
  ∀ (s t : State) (rs : Bit) (b : Byte), exec (coreInstr rs b) s = .next t →
    (∀ id, id ∉ reqPins s.cfg → lineLevel t.lines id = lineLevel s.lines id) ∧
    ∃ new, t.trace = s.trace ++ new ∧ ∀ e ∈ new, ∀ id, e.pin = some id → id ∈ reqPins s.cfg

/-! ## Pin operations -/

/-- `SETPIN id`, PP word `01 : id`: exactly one transaction; on `ok` the line is high; an unbound pin fails, and in a pin phase a failure
ends the request with `PinFault` (spec/40_bus_framing.md R91, R104). That `PH` stays on `ok`, and that outside a pin phase
nothing is aborted, is the model's choice (log 12). -/
def Obligations.SetpinDrivesHigh : Prop :=
  ∀ (s : State) (id : PinId), decode (.pp (0b01#2 ++ id.code)) = some (.setpin id) ∧
    (legalConfig s.cfg = true → pinProduced s.cfg id = true → s.rstIn = none →
    ∃ t, exec (.setpin id) s = .next t ∧
      (bound s.cfg id = true ∧ (drawAt s 0).fails = false →
        lineLevel t.lines id = true ∧ t.trace = s.trace ++ [.wrote id true] ∧ t.ph = s.ph ∧ t.res = s.res) ∧
      (bound s.cfg id = false ∨ (drawAt s 0).fails = true →
        t.trace = s.trace ++ [.writeFailed id true] ∧
        (if s.ph.isPin then t.res = .pinFault ∧ t.ph = .done else t.res = s.res ∧ t.ph = s.ph)))

/-- `CLRPIN id`, PP word `00 : id`: as `SETPIN`, the line is low (spec/40_bus_framing.md R92, R104, log 12). -/
def Obligations.ClrpinDrivesLow : Prop :=
  ∀ (s : State) (id : PinId), decode (.pp (0b00#2 ++ id.code)) = some (.clrpin id) ∧
    (legalConfig s.cfg = true → pinProduced s.cfg id = true → s.rstIn = none →
    ∃ t, exec (.clrpin id) s = .next t ∧
      (bound s.cfg id = true ∧ (drawAt s 0).fails = false →
        lineLevel t.lines id = false ∧ t.trace = s.trace ++ [.wrote id false] ∧ t.ph = s.ph ∧ t.res = s.res) ∧
      (bound s.cfg id = false ∨ (drawAt s 0).fails = true →
        t.trace = s.trace ++ [.writeFailed id false] ∧
        (if s.ph.isPin then t.res = .pinFault ∧ t.ph = .done else t.res = s.res ∧ t.ph = s.ph)))

/-- `READPIN id`: a driven line reads its level, a released data line whatever the controller drives; a failed read
delivers nothing (spec/40_bus_framing.md R93, R104, log 12). -/
def Obligations.ReadpinReturnsLevel : Prop :=
  ∀ (s : State) (id : PinId), legalConfig s.cfg = true → pinProduced s.cfg id = true → s.rstIn = none →
    ∃ t, exec (.readpin id) s = .next t ∧ t.lines = s.lines ∧ t.bfs = s.bfs ∧
      (bound s.cfg id = true ∧ (drawAt s 0).fails = false →
        t.trace = s.trace ++ [.readBit id
          (if (∃ i, id = .dl i) ∧ s.doe = false then (drawAt s 0).bit else lineLevel s.lines id)] ∧
        t.ph = s.ph ∧ t.res = s.res) ∧
      (bound s.cfg id = false ∨ (drawAt s 0).fails = true →
        t.trace = s.trace ++ [.readFailed id] ∧
        (if s.ph.isPin then t.res = .pinFault ∧ t.ph = .done else t.res = s.res ∧ t.ph = s.ph))

/-- Frame of the three pin operations: a write changes no line but its own, a read none; every register but `PH` and
`RES` stays, and these two change only when the answer is `fail` (that `PH` stays on `ok` in a pin phase too: log 12). -/
def Obligations.PinOperationFrame : Prop :=
  ∀ (s t : State) (id : PinId) (i : Instr), i = .setpin id ∨ i = .clrpin id ∨ i = .readpin id →
    exec i s = .next t →
    (∀ other, other ≠ id ∨ i = .readpin id → lineLevel t.lines other = lineLevel s.lines other) ∧
    t.cfg = s.cfg ∧ t.reqRs = s.reqRs ∧ t.reqByte = s.reqByte ∧ t.di = s.di ∧ t.nib = s.nib ∧ t.pcnt = s.pcnt ∧
    t.bfs = s.bfs ∧ t.doe = s.doe ∧ t.tmr = s.tmr ∧ t.ist = s.ist ∧ t.cur = s.cur ∧ t.dcb = s.dcb ∧
    t.coreResponses = s.coreResponses ∧ t.feResponses = s.feResponses ∧ t.host = s.host ∧
    (bound s.cfg id = true → (drawAt s 0).fails = false → t.ph = s.ph ∧ t.res = s.res)

/-! ## Phases -/

/-- `P_TEST` (spec/41_transfer_sequencer.md R125): the three outcomes, the not-busy test first. -/
def Obligations.PollTestOutcomes : Prop :=
  ∀ s : State, Busy .pTest s →
    step s = .next
      (if s.bfs ≠ s.cfg.busy then { s with pcnt := s.pcnt + 1, res := .ok, ph := .done }
       else if s.pcnt + 1 = s.cfg.pollMax then { s with pcnt := s.pcnt + 1, res := .hardwareTimeout, ph := .done }
       else { s with pcnt := s.pcnt + 1, ph := .pEhi })

/-- `F_HOLD` (spec/40_bus_framing.md R103): the low nibble next on a 4-bit bus after the high one, else the settle. -/
def Obligations.HoldLeadsToNibbleOrSettle : Prop :=
  ∀ s : State, Busy .fHold s →
    step s = .next
      (if s.cfg.busw = .four ∧ s.nib = false then
        logEvent (.waited .tH) { s with tmr := 0, nib := true, di := 0, ph := .fData }
       else
        logEvent (.waited .tH) { s with tmr := 0, ph := if s.cfg.rwPresent then .pRs else .sDelay })

/-- `F_DATA` (spec/40_bus_framing.md R98) when the transaction answers `ok`: one data line takes its bit of the byte or of
the nibble being framed, the drivers are on from `DI = 0`, and the last line leads to `F_SETUP`. -/
def Obligations.DataPhaseDrivesOneLine : Prop :=
  ∀ s : State, Busy .fData s → s.di.val < busLines s.cfg.busw → bound s.cfg (.dl s.di) = true →
    (drawAt s 0).fails = false →
    let bit := match s.cfg.busw, s.nib with
      | .eight, _ => s.reqByte.getLsbD s.di.val
      | .four, false => s.reqByte.getLsbD (s.di.val + 4)
      | .four, true => s.reqByte.getLsbD s.di.val
    ∃ t, step s = .next t ∧ t.trace = s.trace ++ [.wrote (.dl s.di) bit] ∧
      t.lines = setLine s.lines (.dl s.di) bit ∧ t.doe = (s.doe || s.di == 0) ∧
      (s.di.val + 1 = busLines s.cfg.busw → t.ph = .fSetup ∧ t.di = s.di) ∧
      (s.di.val + 1 < busLines s.cfg.busw → t.ph = .fData ∧ t.di.val = s.di.val + 1) ∧
      t.nib = s.nib ∧ t.pcnt = s.pcnt ∧ t.bfs = s.bfs ∧ t.res = s.res ∧ t.tmr = s.tmr ∧ t.host = s.host

/-- `S_DELAY` (spec/41_transfer_sequencer.md R114): the long wait exactly for a Command transfer of a `LONG_CMD` byte. -/
def Obligations.FixedDelayPhase : Prop :=
  ∀ s : State, Busy .sDelay s →
    step s = .next
      (logEvent (.waited (if s.reqRs = false ∧ s.reqByte ∈ s.cfg.longCmd then .tLong else .tShort))
        { s with tmr := 0, res := .ok, ph := .done })

/-- The wait phases with one exit: one wait event, no pin operation, nothing but `TMR` and `PH` changes
(spec/40_bus_framing.md R95, R99, R101, spec/41_transfer_sequencer.md R118, R120, R123, R124). -/
def Obligations.WaitPhasesOnlyWait : Prop :=
  ∀ (s : State) (w : WaitParam) (p : Phase), Busy s.ph s → waitRow s.cfg s.ph = some (w, p) →
    step s = .next (logEvent (.waited w) { s with tmr := 0, ph := p })

/-- The pin phases that write `RS`, `RW` or `E`, when the transaction answers `ok` (spec/40_bus_framing.md R96, R97, R100,
R102, spec/41_transfer_sequencer.md R116, R117, R119, R122, R124). -/
def Obligations.ControlPhasesDriveTheirLine : Prop :=
  ∀ (s : State) (id : PinId) (v : Bit) (p : Phase), Busy s.ph s → controlRow s.cfg s.reqRs s.ph = some (id, v, p) →
    bound s.cfg id = true → (drawAt s 0).fails = false →
    step s = .next
      (logEvent (.wrote id v)
        { popDraw s with
          lines := setLine s.lines id v, ph := p,
          di := if s.ph = .fRs then 0 else s.di, doe := if s.ph = .pRs then false else s.doe })

/-- `P_READ` (spec/41_transfer_sequencer.md R121) when the transaction answers `ok`: one read of the top data line, its bit
in `BFS`; the lines are released, so the bit is the controller's. -/
def Obligations.PollReadSamplesBusyFlag : Prop :=
  ∀ s : State, Busy .pRead s → s.doe = false → bound s.cfg (.dl (topLine s.cfg.busw)) = true →
    (drawAt s 0).fails = false →
    step s = .next
      (logEvent (.readBit (.dl (match s.cfg.busw with | .four => 3 | .eight => 7)) (drawAt s 0).bit)
        { popDraw s with bfs := (drawAt s 0).bit, ph := .pElo })

/-- `DONE` (spec/41_transfer_sequencer.md R126): `RES` is presented once, the engine is idle, nothing else happens. -/
def Obligations.DonePresentsStatus : Prop :=
  ∀ s : State, Busy .done s →
    step s = .next { s with coreResponses := s.coreResponses ++ [s.res], ph := .idle }

/-- In every pin phase the answer `fail` ends the request at once with `abort(PinFault)`: one failed event, `RES` and `PH`,
and nothing else, no clean-up. A failed write leaves its line at a free level, a failed read no line changed; `DOE` stands as
`F_DATA` at `DI = 0` and `P_RS` set it before the transaction (spec/40_bus_framing.md R104, spec/41_transfer_sequencer.md
R128, spec/60_exceptions.md R196). -/
def Obligations.FailedPinPhaseAborts : Prop :=
  ∀ (s : State) (e : Event) (id : PinId), Busy s.ph s → EngineInv s → pinEvent s = some e → e.pin = some id →
    bound s.cfg id = false ∨ (drawAt s 0).fails = true →
    step s = .next
      (logEvent (failed e)
        { popDraw s with
          res := .pinFault, ph := .done,
          lines := if s.ph = .pRead then s.lines else setLine s.lines id (drawAt s 0).bit,
          doe := if s.ph = .fData ∧ s.di = 0 then true else if s.ph = .pRs then false else s.doe })

/-! ## Front-end requests -/

/-- Before a successful `INIT` every front-end request but `INIT` answers `NotInitialized`, with no pin operation and no
change; the core never raises it (spec/60_exceptions.md R193). -/
def Obligations.GateAnswersNotInitialized : Prop :=
  (∀ (s : State) (i : Instr), FrontEndAccepts s → s.ist ≠ .ready → gated i = true →
    exec i s = .next (answer .notInitialized s)) ∧
  ∀ (s t : State) (rs : Bit) (b : Byte), Accepts s → exec (coreInstr rs b) s = .next t → t.res ≠ .notInitialized

/-- Out-of-range operands answer `OutOfBounds` after the gate and before any pin operation; nothing changes; a string that
is too long is no error (spec/60_exceptions.md R194). -/
def Obligations.OutOfBoundsChangesNothing : Prop :=
  (∀ (s : State) (line col ch index : Byte) (text bitmap : List Byte), FrontEndAccepts s → s.ist = .ready →
    (s.cfg.lines ≤ line.toNat ∨ s.cfg.cols ≤ col.toNat →
      exec (.setcursor line col) s = .next (answer .outOfBounds s) ∧
      exec (.wrcharat line col ch) s = .next (answer .outOfBounds s) ∧
      exec (.wrstrat line col text) s = .next (answer .outOfBounds s)) ∧
    (7 < index.toNat →
      exec (.defglyph index bitmap) s = .next (answer .outOfBounds s) ∧
      exec (.wrglyph index) s = .next (answer .outOfBounds s))) ∧
  ∀ (s t : State) (i : Instr) (text : List Byte), FrontEndAccepts s → s.ist = .ready → exec i s = .next t →
    (i = .wrstr text ∨
      ∃ line col, i = .wrstrat line col text ∧ line.toNat < s.cfg.lines ∧ col.toNat < s.cfg.cols) →
    t.feResponses ≠ s.feResponses ++ [.outOfBounds]

/-- `SETCURSOR` (spec/42_address_cursor.md R142). -/
def Obligations.SetcursorMovesOnSuccess : Prop :=
  ∀ (s : State) (line col : Byte), FrontEndAccepts s →
    decode (.fe [0x09, line, col]) = some (.setcursor line col) ∧
    (s.ist ≠ .ready → exec (.setcursor line col) s = .next (answer .notInitialized s)) ∧
    (s.ist = .ready → s.cfg.lines ≤ line.toNat ∨ s.cfg.cols ≤ col.toNat →
      exec (.setcursor line col) s = .next (answer .outOfBounds s)) ∧
    (s.ist = .ready → line.toNat < s.cfg.lines → col.toNat < s.cfg.cols →
      IssuesOne (.setcursor line col) (.wrc (ddramCommand s.cfg line.toNat col.toNat)) s
        fun u => { u with cur := cell line.toNat col.toNat })

/-- `WRCHAR` (spec/42_address_cursor.md R145): one data write and one column, or nothing and `OK` on a full line. -/
def Obligations.WrcharWritesOrStaysFull : Prop :=
  ∀ (s : State) (ch : Byte), FrontEndAccepts s →
    decode (.fe [0x01, ch]) = some (.wrchar ch) ∧
    (s.ist ≠ .ready → exec (.wrchar ch) s = .next (answer .notInitialized s)) ∧
    (s.ist = .ready → s.cfg.cols ≤ s.cur.col.toNat → exec (.wrchar ch) s = .next (answer .ok s)) ∧
    (s.ist = .ready → s.cur.col.toNat < s.cfg.cols →
      IssuesOne (.wrchar ch) (.wrd ch) s fun u => { u with cur := cell s.cur.line.toNat (s.cur.col.toNat + 1) })

/-- `WRCHARAT` (spec/42_address_cursor.md R146): `SETCURSOR` followed by `WRCHAR` as one request. -/
def Obligations.WrcharatIsSetcursorThenWrchar : Prop :=
  ∀ (s : State) (line col ch : Byte), FrontEndAccepts s →
    decode (.fe [0x02, line, col, ch]) = some (.wrcharat line col ch) ∧
    (s.ist ≠ .ready → exec (.wrcharat line col ch) s = .next (answer .notInitialized s)) ∧
    (s.ist = .ready → s.cfg.lines ≤ line.toNat ∨ s.cfg.cols ≤ col.toNat →
      exec (.wrcharat line col ch) s = .next (answer .outOfBounds s)) ∧
    (s.ist = .ready → line.toNat < s.cfg.lines → col.toNat < s.cfg.cols →
      ∃ u, exec (.wrc (ddramCommand s.cfg line.toNat col.toNat)) s = .next u ∧
        if u.res = .ok then
          ∃ w, exec (.wrd ch) { u with cur := cell line.toNat col.toNat } = .next w ∧
            exec (.wrcharat line col ch) s = .next
              (if w.res = .ok then answer .ok { w with cur := cell line.toNat (col.toNat + 1) } else answer w.res w)
        else exec (.wrcharat line col ch) s = .next (answer u.res u))

/-- `WRSTR` (spec/42_address_cursor.md R147): at most the columns left are written, in order, and the cursor counts the
bytes written. -/
def Obligations.WrstrTruncatesAtLineEnd : Prop :=
  ∀ (s : State) (text : List Byte), FrontEndAccepts s →
    (text.length ≤ 255 → decode (.fe ([0x03, BitVec.ofNat 8 text.length] ++ text)) = some (.wrstr text)) ∧
    (s.ist ≠ .ready → exec (.wrstr text) s = .next (answer .notInitialized s)) ∧
    (s.ist = .ready → WritesText (.wrstr text) s s text)

/-- `WRSTRAT` (spec/42_address_cursor.md R148): `SETCURSOR` followed by `WRSTR` as one request. -/
def Obligations.WrstratIsSetcursorThenWrstr : Prop :=
  ∀ (s : State) (line col : Byte) (text : List Byte), FrontEndAccepts s →
    (text.length ≤ 255 →
      decode (.fe ([0x04, line, col, BitVec.ofNat 8 text.length] ++ text)) = some (.wrstrat line col text)) ∧
    (s.ist ≠ .ready → exec (.wrstrat line col text) s = .next (answer .notInitialized s)) ∧
    (s.ist = .ready → s.cfg.lines ≤ line.toNat ∨ s.cfg.cols ≤ col.toNat →
      exec (.wrstrat line col text) s = .next (answer .outOfBounds s)) ∧
    (s.ist = .ready → line.toNat < s.cfg.lines → col.toNat < s.cfg.cols →
      ∃ u, exec (.wrc (ddramCommand s.cfg line.toNat col.toNat)) s = .next u ∧
        if u.res = .ok then
          WritesText (.wrstrat line col text) s { u with cur := cell line.toNat col.toNat } text
        else exec (.wrstrat line col text) s = .next (answer u.res u))

/-- `CLEAR` and `HOME` (spec/42_address_cursor.md R149, R150); without a read/write line they settle with `T_LONG`. -/
def Obligations.ClearAndHomeResetCursor : Prop :=
  ∀ s : State, FrontEndAccepts s →
    decode (.fe [0x05]) = some .clear ∧ decode (.fe [0x06]) = some .home ∧
    (s.ist ≠ .ready → exec .clear s = .next (answer .notInitialized s) ∧
      exec .home s = .next (answer .notInitialized s)) ∧
    (s.ist = .ready → IssuesOne .clear (.wrc 0x01) s (fun u => { u with cur := ⟨0, 0⟩ }) ∧
      IssuesOne .home (.wrc 0x02) s (fun u => { u with cur := ⟨0, 0⟩ })) ∧
    (∀ (t : State) (i : Instr), i = .clear ∨ i = .home → s.cfg.rwPresent = false → s.ist = .ready →
      exec i s = .next t → t.feResponses = s.feResponses ++ [.ok] → t.trace.getLast? = some (.waited .tLong))

/-- `SHIFTL` and `SHIFTR` (spec/42_address_cursor.md R151, R152): one command, nothing committed. -/
def Obligations.ShiftsLeaveCursor : Prop :=
  ∀ s : State, FrontEndAccepts s →
    decode (.fe [0x07]) = some .shiftl ∧ decode (.fe [0x08]) = some .shiftr ∧
    (s.ist ≠ .ready → exec .shiftl s = .next (answer .notInitialized s) ∧
      exec .shiftr s = .next (answer .notInitialized s)) ∧
    (s.ist = .ready → IssuesOne .shiftl (.wrc 0x18) s (fun u => u) ∧ IssuesOne .shiftr (.wrc 0x1C) s (fun u => u))

/-- The six display-control requests (spec/42_address_cursor.md R153 to R158): one bit of `DCB` changes, the command
carries all three, and the shadow is committed only on success. -/
def Obligations.DisplayRequestsCommitShadow : Prop :=
  (decode (.fe [0x0A]) = some .dispon ∧ decode (.fe [0x0B]) = some .dispoff ∧ decode (.fe [0x0C]) = some .curon ∧
    decode (.fe [0x0D]) = some .curoff ∧ decode (.fe [0x0E]) = some .blinkon ∧
    decode (.fe [0x0F]) = some .blinkoff) ∧
  ∀ (s : State) (i : Instr) (n : BitVec 3), FrontEndAccepts s → newDcb s.dcb i = some n →
    (s.ist ≠ .ready → exec i s = .next (answer .notInitialized s)) ∧
    (s.ist = .ready → IssuesOne i (.wrc (BitVec.ofNat 8 (0x08 + n.toNat))) s fun u => { u with dcb := n })

/-- `DEFGLYPH` (spec/43_glyph_format.md R160): ten core requests for a well-formed bitmap, the last restoring the DDRAM
address of the cursor; the first that fails is the last issued. In states no run reaches, `Ready` with `CUR.line` out of
range, the last address rests on the model's reading of a missing offset (log 16). -/
def Obligations.DefglyphWritesSlotAndRestores : Prop :=
  ∀ (s : State) (index : Byte) (bitmap : List Byte), FrontEndAccepts s → bitmap.length = 8 →
    decode (.fe ([0x10, index] ++ bitmap)) = some (.defglyph index bitmap) ∧
    (s.ist ≠ .ready → exec (.defglyph index bitmap) s = .next (answer .notInitialized s)) ∧
    (s.ist = .ready → 7 < index.toNat → exec (.defglyph index bitmap) s = .next (answer .outOfBounds s)) ∧
    (s.ist = .ready → index.toNat ≤ 7 →
      ∃ n r u, issue (.wrc (BitVec.ofNat 8 (0x40 + index.toNat * 8)) :: bitmap.map .wrd ++
          [.wrc (ddramCommand s.cfg s.cur.line.toNat s.cur.col.toNat)]) s = some (n, r, u) ∧
        exec (.defglyph index bitmap) s = .next (answer r u))

/-- `WRGLYPH` (spec/43_glyph_format.md R161): `WRCHAR` of the slot index, with a range check. -/
def Obligations.WrglyphWritesSlotCode : Prop :=
  ∀ (s : State) (index : Byte), FrontEndAccepts s →
    decode (.fe [0x11, index]) = some (.wrglyph index) ∧
    (s.ist ≠ .ready → exec (.wrglyph index) s = .next (answer .notInitialized s)) ∧
    (s.ist = .ready → 7 < index.toNat → exec (.wrglyph index) s = .next (answer .outOfBounds s)) ∧
    (s.ist = .ready → index.toNat ≤ 7 → s.cfg.cols ≤ s.cur.col.toNat → exec (.wrglyph index) s = .next (answer .ok s)) ∧
    (s.ist = .ready → index.toNat ≤ 7 → s.cur.col.toNat < s.cfg.cols →
      IssuesOne (.wrglyph index) (.wrd index) s fun u => { u with cur := cell s.cur.line.toNat (s.cur.col.toNat + 1) })

/-- `WRINT` (spec/43_glyph_format.md R163): the string loop over `dec(v)`. -/
def Obligations.WrintWritesDecimalText : Prop :=
  ∀ (s : State) (v : BitVec 32), FrontEndAccepts s →
    decode (.fe [0x12, BitVec.ofNat 8 (v.toNat / 2 ^ 24), BitVec.ofNat 8 (v.toNat / 2 ^ 16),
      BitVec.ofNat 8 (v.toNat / 2 ^ 8), BitVec.ofNat 8 v.toNat]) = some (.wrint v) ∧
    (s.ist ≠ .ready → exec (.wrint v) s = .next (answer .notInitialized s)) ∧
    (s.ist = .ready → WritesText (.wrint v) s s (decimalText v))

/-- `dec(v)` (spec/43_glyph_format.md R162): a leading `-` exactly for negatives, then the digits of the magnitude, most
significant first, no leading zeros, at least one digit, 1 to 11 bytes. -/
def Obligations.DecimalTextIsRight : Prop :=
  ∀ v : BitVec 32, ∃ ds : List Byte,
    decimalText v = (if v.toInt < 0 then [0x2D] else []) ++ ds ∧ ds ≠ [] ∧
    (∀ d ∈ ds, 0x30 ≤ d.toNat ∧ d.toNat ≤ 0x39) ∧ (ds.head? = some 0x30 → ds = [0x30]) ∧
    digitsValue ds = v.toInt.natAbs ∧ (decimalText v).length ≤ 11

/-- `INIT` (spec/44_init_validation.md R173, R174): the five commands in order from any state of `IST`; success gives
`Ready` with a fresh cursor and shadow, the first failure gives `Uninitialized` and its status. -/
def Obligations.InitIssuesFiveCommands : Prop :=
  ∀ s : State, FrontEndAccepts s → decode (.fe [0x00]) = some .init ∧
    ∃ n r u, issue [.wrc s.cfg.funcsetCmd, .wrc 0x08, .wrc 0x01, .wrc s.cfg.entryCmd, .wrc s.cfg.displayCmd]
        { s with ist := .initializing } = some (n, r, u) ∧
      exec .init s = .next
        (if r = .ok then
          answer .ok { u with ist := .ready, cur := ⟨0, 0⟩, dcb := s.cfg.displayCmd.extractLsb' 0 3 }
         else answer r { u with ist := .uninitialized })

/-- Frame of the front-end requests: one status is presented; the configuration and the host's events stay; `IST` changes
by `INIT` only, `DCB` by `INIT` and the six display-control requests only, `CUR` by `INIT` and the requests that write or
position only; no pin outside `REQPINS` is touched. -/
def Obligations.FrontEndRequestFrame : Prop :=
  ∀ (s t : State) (i : Instr), Accepts s → gated i = true ∨ i = .init → exec i s = .next t →
    t.cfg = s.cfg ∧ t.host = s.host ∧ t.ph = .idle ∧
    (∃ r, r.isFrontEnd = true ∧ t.feResponses = s.feResponses ++ [r]) ∧
    (i ≠ .init → t.ist = s.ist) ∧ (setsDisplay i = false → t.dcb = s.dcb) ∧
    (movesCursor i = false → t.cur = s.cur) ∧
    ∀ id, id ∉ reqPins s.cfg → lineLevel t.lines id = lineLevel s.lines id

/-- `SETCURSOR` followed by `WRCHAR` advances the cursor exactly one column, the last column included
(spec/95_test_vectors.md E1, spec/42_address_cursor.md R142 to R145). -/
def Obligations.PositionThenWriteAdvancesOne : Prop :=
  ∀ (s u t : State) (line col ch : Byte), FrontEndAccepts s → s.ist = .ready →
    line.toNat < s.cfg.lines → col.toNat < s.cfg.cols →
    exec (.setcursor line col) s = .next u → u.feResponses = s.feResponses ++ [.ok] →
    exec (.wrchar ch) u = .next t → t.feResponses = u.feResponses ++ [.ok] →
    t.cur.line.toNat = line.toNat ∧ t.cur.col.toNat = col.toNat + 1

/-! ## The whole machine -/

/-- `IST` changes by `INIT` and by `rst` only (spec/44_init_validation.md R172). -/
def Obligations.OnlyInitAndRstChangeIst : Prop :=
  ∀ s t : State, step s = .next t → t.ist ≠ s.ist →
    (∃ rest, s.host = .rst :: rest) ∨ (∃ r k rest, s.host = .cut r k :: rest) ∨
    (∃ r rest, s.host = .request r :: rest ∧ decode r = some .init)

/-- The configuration never changes (spec/10_state.md R30), and a step only appends to the history and to the two lists of
statuses; that `rst` does not erase those is the model's choice (log 6). -/
def Obligations.HistoryOnlyGrows : Prop :=
  ∀ s t : State, step s = .next t →
    t.cfg = s.cfg ∧ s.history <+: t.history ∧ s.coreResponses <+: t.coreResponses ∧
    s.feResponses <+: t.feResponses

/-- Engine and controller never both drive the data lines while no write of `RW` fails (spec/70_reset_and_hazards.md R228):
a fresh engine meets `WriteBeforeDrive`, acceptance and every step of a busy engine keep it, and so does every core and
front-end request as a whole. -/
def Obligations.NoDataLineContention : Prop :=
  (∀ s : State, FreshEngine s → WriteBeforeDrive s) ∧
  (∀ (s : State) (rs : Bit) (b : Byte), WriteBeforeDrive s → WriteBeforeDrive (accept rs b s)) ∧
  (∀ s t : State, EngineInv s → s.cfg.rwPresent = true → s.ph ≠ .idle → WriteBeforeDrive s → step s = .next t →
    (∀ v, Event.writeFailed .rw v ∉ t.trace.drop s.trace.length) → WriteBeforeDrive t) ∧
  ∀ (s t : State) (i : Instr), Accepts s → s.cfg.rwPresent = true → WriteBeforeDrive s →
    (∃ rs b, i = coreInstr rs b) ∨ gated i = true ∨ i = .init → exec i s = .next t →
    (∀ v, Event.writeFailed .rw v ∉ t.trace.drop s.trace.length) → WriteBeforeDrive t

/-- A core request that `rst` cuts short after `k` phases: the pins, the trace and the response are those of `k` phases run
one by one from acceptance, so a request still in progress then gets no response; the engine is in its reset state
(spec/70_reset_and_hazards.md R229, spec/93_implementation_defined.md U12). With a front-end the word is refused (R39, log
11). That `rst` lands between phases is log 19, that it keeps the history and the statuses log 6. -/
def Obligations.CutRequestLeavesPrefix : Prop :=
  ∀ (s : State) (rs : Bit) (b : Byte) (w : BitVec 9) (k : Nat) (rest : List HostEvent), Accepts s →
    decode (.cp w) = some (coreInstr rs b) → s.host = .cut (.cp w) k :: rest →
    (s.cfg.hasFe = true → step s = .refused .corePortInternal) ∧
    (s.cfg.hasFe = false →
      ∃ t u, step s = .next t ∧ core.run k (accept rs b { s with host := [] }) = .next u ∧
        t.history = u.history ∧ t.lines = u.lines ∧ t.draws = u.draws ∧ t.drawn = u.drawn ∧
        t.coreResponses = u.coreResponses ∧ (u.ph ≠ .idle → t.coreResponses = s.coreResponses) ∧
        t.feResponses = s.feResponses ∧ t.cfg = s.cfg ∧ t.host = rest ∧
        t.ph = .idle ∧ t.doe = false ∧ t.di = 0 ∧ t.nib = false ∧ t.pcnt = 0 ∧ t.tmr = 0 ∧ t.ist = .uninitialized)

/-- Every step of every state that meets the invariant gives a state that meets it. That `RES` is a core status after `rst`
rests on the value the model gives it there (log 7). -/
def Obligations.StepKeepsInvariant : Prop :=
  ∀ s t : State, EngineInv s → step s = .next t → EngineInv t

/-- The reset state meets the invariant, and so does a freshly reset engine of any legal configuration, whatever the host
and the pins will do. The clause about `RES` rests on its reset value, which is the model's choice (log 7). -/
def Obligations.FreshEngineMeetsInvariant : Prop :=
  EngineInv State.reset ∧ ∀ s : State, FreshEngine s → EngineInv s
end

