-- ==== Sys2Proof/Laws/State.lean ====
section
/-! SUPPORT. One lemma per field of State per shared update, each true by `rfl` (`popDraw` by its two cases). -/

namespace Sys2Proof.Machine

variable (s : State)

@[simp] theorem logEvent_cfg (e : Event) : (logEvent e s).cfg = s.cfg := rfl
@[simp] theorem logEvent_reqRs (e : Event) : (logEvent e s).reqRs = s.reqRs := rfl
@[simp] theorem logEvent_reqByte (e : Event) : (logEvent e s).reqByte = s.reqByte := rfl
@[simp] theorem logEvent_ph (e : Event) : (logEvent e s).ph = s.ph := rfl
@[simp] theorem logEvent_di (e : Event) : (logEvent e s).di = s.di := rfl
@[simp] theorem logEvent_nib (e : Event) : (logEvent e s).nib = s.nib := rfl
@[simp] theorem logEvent_pcnt (e : Event) : (logEvent e s).pcnt = s.pcnt := rfl
@[simp] theorem logEvent_bfs (e : Event) : (logEvent e s).bfs = s.bfs := rfl
@[simp] theorem logEvent_res (e : Event) : (logEvent e s).res = s.res := rfl
@[simp] theorem logEvent_doe (e : Event) : (logEvent e s).doe = s.doe := rfl
@[simp] theorem logEvent_tmr (e : Event) : (logEvent e s).tmr = s.tmr := rfl
@[simp] theorem logEvent_ist (e : Event) : (logEvent e s).ist = s.ist := rfl
@[simp] theorem logEvent_cur (e : Event) : (logEvent e s).cur = s.cur := rfl
@[simp] theorem logEvent_dcb (e : Event) : (logEvent e s).dcb = s.dcb := rfl
@[simp] theorem logEvent_lines (e : Event) : (logEvent e s).lines = s.lines := rfl
@[simp] theorem logEvent_history (e : Event) : (logEvent e s).history = s.history ++ [⟨e, s.doe, s.lines⟩] := rfl
@[simp] theorem logEvent_trace (e : Event) : (logEvent e s).trace = s.trace ++ [e] := by simp [State.trace]
@[simp] theorem logEvent_coreResponses (e : Event) : (logEvent e s).coreResponses = s.coreResponses := rfl
@[simp] theorem logEvent_feResponses (e : Event) : (logEvent e s).feResponses = s.feResponses := rfl
@[simp] theorem logEvent_host (e : Event) : (logEvent e s).host = s.host := rfl
@[simp] theorem logEvent_rstIn (e : Event) : (logEvent e s).rstIn = s.rstIn := rfl
@[simp] theorem logEvent_draws (e : Event) : (logEvent e s).draws = s.draws := rfl
@[simp] theorem logEvent_drawn (e : Event) : (logEvent e s).drawn = s.drawn := rfl

@[simp] theorem loadTimer_cfg (t : WaitParam) : (loadTimer t s).cfg = s.cfg := rfl
@[simp] theorem loadTimer_reqRs (t : WaitParam) : (loadTimer t s).reqRs = s.reqRs := rfl
@[simp] theorem loadTimer_reqByte (t : WaitParam) : (loadTimer t s).reqByte = s.reqByte := rfl
@[simp] theorem loadTimer_ph (t : WaitParam) : (loadTimer t s).ph = s.ph := rfl
@[simp] theorem loadTimer_di (t : WaitParam) : (loadTimer t s).di = s.di := rfl
@[simp] theorem loadTimer_nib (t : WaitParam) : (loadTimer t s).nib = s.nib := rfl
@[simp] theorem loadTimer_pcnt (t : WaitParam) : (loadTimer t s).pcnt = s.pcnt := rfl
@[simp] theorem loadTimer_bfs (t : WaitParam) : (loadTimer t s).bfs = s.bfs := rfl
@[simp] theorem loadTimer_res (t : WaitParam) : (loadTimer t s).res = s.res := rfl
@[simp] theorem loadTimer_doe (t : WaitParam) : (loadTimer t s).doe = s.doe := rfl
@[simp] theorem loadTimer_tmr (t : WaitParam) : (loadTimer t s).tmr = waitTicks s.cfg t := rfl
@[simp] theorem loadTimer_ist (t : WaitParam) : (loadTimer t s).ist = s.ist := rfl
@[simp] theorem loadTimer_cur (t : WaitParam) : (loadTimer t s).cur = s.cur := rfl
@[simp] theorem loadTimer_dcb (t : WaitParam) : (loadTimer t s).dcb = s.dcb := rfl
@[simp] theorem loadTimer_lines (t : WaitParam) : (loadTimer t s).lines = s.lines := rfl
@[simp] theorem loadTimer_history (t : WaitParam) : (loadTimer t s).history = s.history := rfl
@[simp] theorem loadTimer_trace (t : WaitParam) : (loadTimer t s).trace = s.trace := rfl
@[simp] theorem loadTimer_coreResponses (t : WaitParam) : (loadTimer t s).coreResponses = s.coreResponses := rfl
@[simp] theorem loadTimer_feResponses (t : WaitParam) : (loadTimer t s).feResponses = s.feResponses := rfl
@[simp] theorem loadTimer_host (t : WaitParam) : (loadTimer t s).host = s.host := rfl
@[simp] theorem loadTimer_rstIn (t : WaitParam) : (loadTimer t s).rstIn = s.rstIn := rfl
@[simp] theorem loadTimer_draws (t : WaitParam) : (loadTimer t s).draws = s.draws := rfl
@[simp] theorem loadTimer_drawn (t : WaitParam) : (loadTimer t s).drawn = s.drawn := rfl

@[simp] theorem elapse_cfg (n : Nat) : (elapse n s).cfg = s.cfg := rfl
@[simp] theorem elapse_reqRs (n : Nat) : (elapse n s).reqRs = s.reqRs := rfl
@[simp] theorem elapse_reqByte (n : Nat) : (elapse n s).reqByte = s.reqByte := rfl
@[simp] theorem elapse_ph (n : Nat) : (elapse n s).ph = s.ph := rfl
@[simp] theorem elapse_di (n : Nat) : (elapse n s).di = s.di := rfl
@[simp] theorem elapse_nib (n : Nat) : (elapse n s).nib = s.nib := rfl
@[simp] theorem elapse_pcnt (n : Nat) : (elapse n s).pcnt = s.pcnt := rfl
@[simp] theorem elapse_bfs (n : Nat) : (elapse n s).bfs = s.bfs := rfl
@[simp] theorem elapse_res (n : Nat) : (elapse n s).res = s.res := rfl
@[simp] theorem elapse_doe (n : Nat) : (elapse n s).doe = s.doe := rfl
@[simp] theorem elapse_tmr (n : Nat) : (elapse n s).tmr = s.tmr - n := rfl
@[simp] theorem elapse_ist (n : Nat) : (elapse n s).ist = s.ist := rfl
@[simp] theorem elapse_cur (n : Nat) : (elapse n s).cur = s.cur := rfl
@[simp] theorem elapse_dcb (n : Nat) : (elapse n s).dcb = s.dcb := rfl
@[simp] theorem elapse_lines (n : Nat) : (elapse n s).lines = s.lines := rfl
@[simp] theorem elapse_history (n : Nat) : (elapse n s).history = s.history := rfl
@[simp] theorem elapse_trace (n : Nat) : (elapse n s).trace = s.trace := rfl
@[simp] theorem elapse_coreResponses (n : Nat) : (elapse n s).coreResponses = s.coreResponses := rfl
@[simp] theorem elapse_feResponses (n : Nat) : (elapse n s).feResponses = s.feResponses := rfl
@[simp] theorem elapse_host (n : Nat) : (elapse n s).host = s.host := rfl
@[simp] theorem elapse_rstIn (n : Nat) : (elapse n s).rstIn = s.rstIn := rfl
@[simp] theorem elapse_draws (n : Nat) : (elapse n s).draws = s.draws := rfl
@[simp] theorem elapse_drawn (n : Nat) : (elapse n s).drawn = s.drawn := rfl

@[simp] theorem abort_cfg (e : Status) : (abort e s).cfg = s.cfg := rfl
@[simp] theorem abort_reqRs (e : Status) : (abort e s).reqRs = s.reqRs := rfl
@[simp] theorem abort_reqByte (e : Status) : (abort e s).reqByte = s.reqByte := rfl
@[simp] theorem abort_ph (e : Status) : (abort e s).ph = .done := rfl
@[simp] theorem abort_di (e : Status) : (abort e s).di = s.di := rfl
@[simp] theorem abort_nib (e : Status) : (abort e s).nib = s.nib := rfl
@[simp] theorem abort_pcnt (e : Status) : (abort e s).pcnt = s.pcnt := rfl
@[simp] theorem abort_bfs (e : Status) : (abort e s).bfs = s.bfs := rfl
@[simp] theorem abort_res (e : Status) : (abort e s).res = e := rfl
@[simp] theorem abort_doe (e : Status) : (abort e s).doe = s.doe := rfl
@[simp] theorem abort_tmr (e : Status) : (abort e s).tmr = s.tmr := rfl
@[simp] theorem abort_ist (e : Status) : (abort e s).ist = s.ist := rfl
@[simp] theorem abort_cur (e : Status) : (abort e s).cur = s.cur := rfl
@[simp] theorem abort_dcb (e : Status) : (abort e s).dcb = s.dcb := rfl
@[simp] theorem abort_lines (e : Status) : (abort e s).lines = s.lines := rfl
@[simp] theorem abort_history (e : Status) : (abort e s).history = s.history := rfl
@[simp] theorem abort_trace (e : Status) : (abort e s).trace = s.trace := rfl
@[simp] theorem abort_coreResponses (e : Status) : (abort e s).coreResponses = s.coreResponses := rfl
@[simp] theorem abort_feResponses (e : Status) : (abort e s).feResponses = s.feResponses := rfl
@[simp] theorem abort_host (e : Status) : (abort e s).host = s.host := rfl
@[simp] theorem abort_rstIn (e : Status) : (abort e s).rstIn = s.rstIn := rfl
@[simp] theorem abort_draws (e : Status) : (abort e s).draws = s.draws := rfl
@[simp] theorem abort_drawn (e : Status) : (abort e s).drawn = s.drawn := rfl

@[simp] theorem goto_cfg (p : Phase) : (goto p s).cfg = s.cfg := rfl
@[simp] theorem goto_reqRs (p : Phase) : (goto p s).reqRs = s.reqRs := rfl
@[simp] theorem goto_reqByte (p : Phase) : (goto p s).reqByte = s.reqByte := rfl
@[simp] theorem goto_ph (p : Phase) : (goto p s).ph = p := rfl
@[simp] theorem goto_di (p : Phase) : (goto p s).di = s.di := rfl
@[simp] theorem goto_nib (p : Phase) : (goto p s).nib = s.nib := rfl
@[simp] theorem goto_pcnt (p : Phase) : (goto p s).pcnt = s.pcnt := rfl
@[simp] theorem goto_bfs (p : Phase) : (goto p s).bfs = s.bfs := rfl
@[simp] theorem goto_res (p : Phase) : (goto p s).res = s.res := rfl
@[simp] theorem goto_doe (p : Phase) : (goto p s).doe = s.doe := rfl
@[simp] theorem goto_tmr (p : Phase) : (goto p s).tmr = s.tmr := rfl
@[simp] theorem goto_ist (p : Phase) : (goto p s).ist = s.ist := rfl
@[simp] theorem goto_cur (p : Phase) : (goto p s).cur = s.cur := rfl
@[simp] theorem goto_dcb (p : Phase) : (goto p s).dcb = s.dcb := rfl
@[simp] theorem goto_lines (p : Phase) : (goto p s).lines = s.lines := rfl
@[simp] theorem goto_history (p : Phase) : (goto p s).history = s.history := rfl
@[simp] theorem goto_trace (p : Phase) : (goto p s).trace = s.trace := rfl
@[simp] theorem goto_coreResponses (p : Phase) : (goto p s).coreResponses = s.coreResponses := rfl
@[simp] theorem goto_feResponses (p : Phase) : (goto p s).feResponses = s.feResponses := rfl
@[simp] theorem goto_host (p : Phase) : (goto p s).host = s.host := rfl
@[simp] theorem goto_rstIn (p : Phase) : (goto p s).rstIn = s.rstIn := rfl
@[simp] theorem goto_draws (p : Phase) : (goto p s).draws = s.draws := rfl
@[simp] theorem goto_drawn (p : Phase) : (goto p s).drawn = s.drawn := rfl

@[simp] theorem respondCore_cfg : (respondCore s).cfg = s.cfg := rfl
@[simp] theorem respondCore_reqRs : (respondCore s).reqRs = s.reqRs := rfl
@[simp] theorem respondCore_reqByte : (respondCore s).reqByte = s.reqByte := rfl
@[simp] theorem respondCore_ph : (respondCore s).ph = .idle := rfl
@[simp] theorem respondCore_di : (respondCore s).di = s.di := rfl
@[simp] theorem respondCore_nib : (respondCore s).nib = s.nib := rfl
@[simp] theorem respondCore_pcnt : (respondCore s).pcnt = s.pcnt := rfl
@[simp] theorem respondCore_bfs : (respondCore s).bfs = s.bfs := rfl
@[simp] theorem respondCore_res : (respondCore s).res = s.res := rfl
@[simp] theorem respondCore_doe : (respondCore s).doe = s.doe := rfl
@[simp] theorem respondCore_tmr : (respondCore s).tmr = s.tmr := rfl
@[simp] theorem respondCore_ist : (respondCore s).ist = s.ist := rfl
@[simp] theorem respondCore_cur : (respondCore s).cur = s.cur := rfl
@[simp] theorem respondCore_dcb : (respondCore s).dcb = s.dcb := rfl
@[simp] theorem respondCore_lines : (respondCore s).lines = s.lines := rfl
@[simp] theorem respondCore_history : (respondCore s).history = s.history := rfl
@[simp] theorem respondCore_trace : (respondCore s).trace = s.trace := rfl
@[simp] theorem respondCore_coreResponses : (respondCore s).coreResponses = s.coreResponses ++ [s.res] := rfl
@[simp] theorem respondCore_feResponses : (respondCore s).feResponses = s.feResponses := rfl
@[simp] theorem respondCore_host : (respondCore s).host = s.host := rfl
@[simp] theorem respondCore_rstIn : (respondCore s).rstIn = s.rstIn := rfl
@[simp] theorem respondCore_draws : (respondCore s).draws = s.draws := rfl
@[simp] theorem respondCore_drawn : (respondCore s).drawn = s.drawn := rfl

@[simp] theorem countToRst_cfg : (countToRst s).cfg = s.cfg := rfl
@[simp] theorem countToRst_reqRs : (countToRst s).reqRs = s.reqRs := rfl
@[simp] theorem countToRst_reqByte : (countToRst s).reqByte = s.reqByte := rfl
@[simp] theorem countToRst_ph : (countToRst s).ph = s.ph := rfl
@[simp] theorem countToRst_di : (countToRst s).di = s.di := rfl
@[simp] theorem countToRst_nib : (countToRst s).nib = s.nib := rfl
@[simp] theorem countToRst_pcnt : (countToRst s).pcnt = s.pcnt := rfl
@[simp] theorem countToRst_bfs : (countToRst s).bfs = s.bfs := rfl
@[simp] theorem countToRst_res : (countToRst s).res = s.res := rfl
@[simp] theorem countToRst_doe : (countToRst s).doe = s.doe := rfl
@[simp] theorem countToRst_tmr : (countToRst s).tmr = s.tmr := rfl
@[simp] theorem countToRst_ist : (countToRst s).ist = s.ist := rfl
@[simp] theorem countToRst_cur : (countToRst s).cur = s.cur := rfl
@[simp] theorem countToRst_dcb : (countToRst s).dcb = s.dcb := rfl
@[simp] theorem countToRst_lines : (countToRst s).lines = s.lines := rfl
@[simp] theorem countToRst_history : (countToRst s).history = s.history := rfl
@[simp] theorem countToRst_trace : (countToRst s).trace = s.trace := rfl
@[simp] theorem countToRst_coreResponses : (countToRst s).coreResponses = s.coreResponses := rfl
@[simp] theorem countToRst_feResponses : (countToRst s).feResponses = s.feResponses := rfl
@[simp] theorem countToRst_host : (countToRst s).host = s.host := rfl
@[simp] theorem countToRst_rstIn : (countToRst s).rstIn = s.rstIn.map (· - 1) := rfl
@[simp] theorem countToRst_draws : (countToRst s).draws = s.draws := rfl
@[simp] theorem countToRst_drawn : (countToRst s).drawn = s.drawn := rfl

@[simp] theorem accept_cfg (rs : Bit) (byte : Byte) : (accept rs byte s).cfg = s.cfg := rfl
@[simp] theorem accept_reqRs (rs : Bit) (byte : Byte) : (accept rs byte s).reqRs = rs := rfl
@[simp] theorem accept_reqByte (rs : Bit) (byte : Byte) : (accept rs byte s).reqByte = byte := rfl
@[simp] theorem accept_ph (rs : Bit) (byte : Byte) : (accept rs byte s).ph = .fRs := rfl
@[simp] theorem accept_di (rs : Bit) (byte : Byte) : (accept rs byte s).di = 0 := rfl
@[simp] theorem accept_nib (rs : Bit) (byte : Byte) : (accept rs byte s).nib = false := rfl
@[simp] theorem accept_pcnt (rs : Bit) (byte : Byte) : (accept rs byte s).pcnt = 0 := rfl
@[simp] theorem accept_bfs (rs : Bit) (byte : Byte) : (accept rs byte s).bfs = s.bfs := rfl
@[simp] theorem accept_res (rs : Bit) (byte : Byte) : (accept rs byte s).res = s.res := rfl
@[simp] theorem accept_doe (rs : Bit) (byte : Byte) : (accept rs byte s).doe = s.doe := rfl
@[simp] theorem accept_tmr (rs : Bit) (byte : Byte) : (accept rs byte s).tmr = s.tmr := rfl
@[simp] theorem accept_ist (rs : Bit) (byte : Byte) : (accept rs byte s).ist = s.ist := rfl
@[simp] theorem accept_cur (rs : Bit) (byte : Byte) : (accept rs byte s).cur = s.cur := rfl
@[simp] theorem accept_dcb (rs : Bit) (byte : Byte) : (accept rs byte s).dcb = s.dcb := rfl
@[simp] theorem accept_lines (rs : Bit) (byte : Byte) : (accept rs byte s).lines = s.lines := rfl
@[simp] theorem accept_history (rs : Bit) (byte : Byte) : (accept rs byte s).history = s.history := rfl
@[simp] theorem accept_trace (rs : Bit) (byte : Byte) : (accept rs byte s).trace = s.trace := rfl
@[simp] theorem accept_coreResponses (rs : Bit) (byte : Byte) : (accept rs byte s).coreResponses = s.coreResponses := rfl
@[simp] theorem accept_feResponses (rs : Bit) (byte : Byte) : (accept rs byte s).feResponses = s.feResponses := rfl
@[simp] theorem accept_host (rs : Bit) (byte : Byte) : (accept rs byte s).host = s.host := rfl
@[simp] theorem accept_rstIn (rs : Bit) (byte : Byte) : (accept rs byte s).rstIn = s.rstIn := rfl
@[simp] theorem accept_draws (rs : Bit) (byte : Byte) : (accept rs byte s).draws = s.draws := rfl
@[simp] theorem accept_drawn (rs : Bit) (byte : Byte) : (accept rs byte s).drawn = s.drawn := rfl

@[simp] theorem resetEngine_cfg : (resetEngine s).cfg = s.cfg := rfl
@[simp] theorem resetEngine_reqRs : (resetEngine s).reqRs = false := rfl
@[simp] theorem resetEngine_reqByte : (resetEngine s).reqByte = 0x00 := rfl
@[simp] theorem resetEngine_ph : (resetEngine s).ph = .idle := rfl
@[simp] theorem resetEngine_di : (resetEngine s).di = 0 := rfl
@[simp] theorem resetEngine_nib : (resetEngine s).nib = false := rfl
@[simp] theorem resetEngine_pcnt : (resetEngine s).pcnt = 0 := rfl
@[simp] theorem resetEngine_bfs : (resetEngine s).bfs = false := rfl
@[simp] theorem resetEngine_res : (resetEngine s).res = .ok := rfl
@[simp] theorem resetEngine_doe : (resetEngine s).doe = false := rfl
@[simp] theorem resetEngine_tmr : (resetEngine s).tmr = 0 := rfl
@[simp] theorem resetEngine_ist : (resetEngine s).ist = .uninitialized := rfl
@[simp] theorem resetEngine_cur : (resetEngine s).cur = ⟨0, 0⟩ := rfl
@[simp] theorem resetEngine_dcb : (resetEngine s).dcb = 0b000 := rfl
@[simp] theorem resetEngine_lines : (resetEngine s).lines = s.lines := rfl
@[simp] theorem resetEngine_history : (resetEngine s).history = s.history := rfl
@[simp] theorem resetEngine_trace : (resetEngine s).trace = s.trace := rfl
@[simp] theorem resetEngine_coreResponses : (resetEngine s).coreResponses = s.coreResponses := rfl
@[simp] theorem resetEngine_feResponses : (resetEngine s).feResponses = s.feResponses := rfl
@[simp] theorem resetEngine_host : (resetEngine s).host = s.host := rfl
@[simp] theorem resetEngine_rstIn : (resetEngine s).rstIn = none := rfl
@[simp] theorem resetEngine_draws : (resetEngine s).draws = s.draws := rfl
@[simp] theorem resetEngine_drawn : (resetEngine s).drawn = s.drawn := rfl

@[simp] theorem popDraw_cfg : (popDraw s).cfg = s.cfg := by unfold popDraw; split <;> rfl
@[simp] theorem popDraw_reqRs : (popDraw s).reqRs = s.reqRs := by unfold popDraw; split <;> rfl
@[simp] theorem popDraw_reqByte : (popDraw s).reqByte = s.reqByte := by unfold popDraw; split <;> rfl
@[simp] theorem popDraw_ph : (popDraw s).ph = s.ph := by unfold popDraw; split <;> rfl
@[simp] theorem popDraw_di : (popDraw s).di = s.di := by unfold popDraw; split <;> rfl
@[simp] theorem popDraw_nib : (popDraw s).nib = s.nib := by unfold popDraw; split <;> rfl
@[simp] theorem popDraw_pcnt : (popDraw s).pcnt = s.pcnt := by unfold popDraw; split <;> rfl
@[simp] theorem popDraw_bfs : (popDraw s).bfs = s.bfs := by unfold popDraw; split <;> rfl
@[simp] theorem popDraw_res : (popDraw s).res = s.res := by unfold popDraw; split <;> rfl
@[simp] theorem popDraw_doe : (popDraw s).doe = s.doe := by unfold popDraw; split <;> rfl
@[simp] theorem popDraw_tmr : (popDraw s).tmr = s.tmr := by unfold popDraw; split <;> rfl
@[simp] theorem popDraw_ist : (popDraw s).ist = s.ist := by unfold popDraw; split <;> rfl
@[simp] theorem popDraw_cur : (popDraw s).cur = s.cur := by unfold popDraw; split <;> rfl
@[simp] theorem popDraw_dcb : (popDraw s).dcb = s.dcb := by unfold popDraw; split <;> rfl
@[simp] theorem popDraw_lines : (popDraw s).lines = s.lines := by unfold popDraw; split <;> rfl
@[simp] theorem popDraw_history : (popDraw s).history = s.history := by unfold popDraw; split <;> rfl
@[simp] theorem popDraw_trace : (popDraw s).trace = s.trace := by unfold popDraw; split <;> rfl
@[simp] theorem popDraw_coreResponses : (popDraw s).coreResponses = s.coreResponses := by unfold popDraw; split <;> rfl
@[simp] theorem popDraw_feResponses : (popDraw s).feResponses = s.feResponses := by unfold popDraw; split <;> rfl
@[simp] theorem popDraw_host : (popDraw s).host = s.host := by unfold popDraw; split <;> rfl
@[simp] theorem popDraw_rstIn : (popDraw s).rstIn = s.rstIn := by unfold popDraw; split <;> rfl

/-! The trace is the events of the history, so a record update that leaves the history leaves the trace. -/

theorem trace_eq_of_history {s t : State} (h : s.history = t.history) : s.trace = t.trace := by
  simp [State.trace, h]

theorem trace_of_history_append {s t : State} {new : List Moment} (h : t.history = s.history ++ new) :
    t.trace = s.trace ++ new.map Moment.event := by
  simp [State.trace, h]

@[simp] theorem resetOf_history (c : Config) : (State.resetOf c).history = [] := rfl
@[simp] theorem resetOf_trace (c : Config) : (State.resetOf c).trace = [] := rfl

end Sys2Proof.Machine
end

