-- ==== Sys2Proof/Laws/Ops.lean ====
section
/-! SUPPORT. What each shared operation can do, said once: lines, pin answers, pin transactions, waits, phases
that drive or sample a pin, the guards. -/

namespace Sys2Proof.Machine

/-! ## Lines -/

theorem setDataLine_getLsbD (dl : BitVec 8) (i j : Fin 8) (v : Bit) :
    (setDataLine dl i v).getLsbD j.val = if i = j then v else dl.getLsbD j.val := by
  have hj := j.isLt
  by_cases h : i = j
  · subst h; cases v <;> simp [setDataLine]
  · have hne : i.val ≠ j.val := fun e => h (Fin.ext e)
    rcases Nat.lt_or_gt_of_ne hne with hlt | hgt
    · have : j.val - i.val ≠ 0 := by omega
      cases v <;> simp [setDataLine, h, Nat.not_lt.mpr (Nat.le_of_lt hlt), this, hj]
    · cases v <;> simp [setDataLine, h, hgt, hj]

/-- Writing one line sets it and leaves every other line alone. -/
theorem lineLevel_setLine (l : Lines) (id other : PinId) (v : Bit) :
    lineLevel (setLine l id v) other = if id = other then v else lineLevel l other := by
  cases id with
  | dl i =>
    cases other with
    | dl j => simpa only [lineLevel, setLine, PinId.dl.injEq] using setDataLine_getLsbD l.dl i j v
    | rs | rw | e => simp [lineLevel, setLine]
  | rs | rw | e => cases other <;> simp [lineLevel, setLine]

/-! ## Pin answers -/

/-- Using up one answer shifts the answers to come by one. -/
theorem drawAt_popDraw (s : State) (k : Nat) : drawAt (popDraw s) k = drawAt s (k + 1) := by
  unfold drawAt popDraw
  cases h : s.draws with
  | nil => simp; congr 1; omega
  | cons d rest => simp

/-- The next answer is answer number 0. -/
theorem nextDraw_eq_drawAt (s : State) : nextDraw s = drawAt s 0 := by
  unfold nextDraw drawAt
  cases h : s.draws <;> simp

/-- The answers to come depend on the answer list and its counter only. -/
theorem drawAt_congr {s t : State} (hd : s.draws = t.draws) (hn : s.drawn = t.drawn) (k : Nat) :
    drawAt s k = drawAt t k := by
  unfold drawAt; rw [hd, hn]

/-! ## Pin transactions -/

/-- A write answers `ok` with the line at the level, or `fail` with the line at a free bit. -/
theorem pinWrite_cases (id : PinId) (v : Bit) (s : State) :
    (answersOk s id = true ∧ pinWrite id v s =
      (true, logEvent (.wrote id v) { popDraw s with lines := setLine s.lines id v })) ∨
    (answersOk s id = false ∧ pinWrite id v s =
      (false, logEvent (.writeFailed id v) { popDraw s with lines := setLine s.lines id (nextDraw s).bit })) := by
  unfold pinWrite
  cases h : answersOk s id <;> simp

/-- A read answers a bit, or `fail`; no line changes. -/
theorem pinRead_cases (id : PinId) (s : State) :
    (answersOk s id = true ∧ pinRead id s =
      (some (readLevel s id), logEvent (.readBit id (readLevel s id)) (popDraw s))) ∨
    (answersOk s id = false ∧ pinRead id s = (none, logEvent (.readFailed id) (popDraw s))) := by
  unfold pinRead
  cases h : answersOk s id <;> simp

/-- A writing phase goes on after `ok` and aborts with `PinFault` after `fail`. -/
theorem drive_cases (id : PinId) (v : Bit) (next : State → State) (s : State) :
    (answersOk s id = true ∧ drive id v next s =
      next (logEvent (.wrote id v) { popDraw s with lines := setLine s.lines id v })) ∨
    (answersOk s id = false ∧ drive id v next s =
      abort .pinFault
        (logEvent (.writeFailed id v) { popDraw s with lines := setLine s.lines id (nextDraw s).bit })) := by
  unfold drive
  rcases pinWrite_cases id v s with ⟨h, e⟩ | ⟨h, e⟩ <;> simp [h, e]

/-- A sampling phase goes on with the bit after `ok` and aborts with `PinFault` after `fail`. -/
theorem sample_cases (id : PinId) (next : Bit → State → State) (s : State) :
    (answersOk s id = true ∧ sample id next s =
      next (readLevel s id) (logEvent (.readBit id (readLevel s id)) (popDraw s))) ∨
    (answersOk s id = false ∧ sample id next s =
      abort .pinFault (logEvent (.readFailed id) (popDraw s))) := by
  unfold sample
  rcases pinRead_cases id s with ⟨h, e⟩ | ⟨h, e⟩ <;> simp [h, e]

/-- A wait leaves the timer at 0 and one event in the trace, and changes nothing else. -/
theorem waitFor_eq (t : WaitParam) (s : State) :
    waitFor t s = logEvent (.waited t) { s with tmr := 0 } := by
  simp [waitFor, loadTimer, elapse, logEvent]

/-! ## Running phases -/

theorem runPhases_zero (s : State) : runPhases 0 s = s := rfl

/-- An idle engine runs no further phase. -/
theorem runPhases_idle {s : State} (h : s.ph = .idle) (n : Nat) : runPhases n s = s := by
  cases n <;> simp [runPhases, h]

/-- With no `rst` to come, a busy engine runs one phase and goes on. -/
theorem runPhases_busy {s : State} (h : s.ph ≠ .idle) (hr : s.rstIn = none) (n : Nat) :
    runPhases (n + 1) s = runPhases n (countToRst (phaseStep s)) := by
  simp [runPhases, h, cutOff, hr]

/-- With no `rst` to come there is nothing to count. -/
theorem countToRst_none {s : State} (hr : s.rstIn = none) : countToRst s = s := by
  cases s; simp_all [countToRst]

/-- With no `rst` to come a request is not cut off. -/
theorem cutOff_none {s : State} (hr : s.rstIn = none) : cutOff s = false := by simp [cutOff, hr]

/-! ## Guards -/

/-- A meaning runs on an engine of a legal configuration. -/
theorem onEngine_legal {s : State} (h : legalConfig s.cfg = true)
    (run : Host.Outcome State Fault Refusal) : onEngine s run = run := by
  simp only [legalConfig, Bool.and_eq_true] at h
  simp [onEngine, h.1, h.2]

/-- A request runs on an idle engine of a legal configuration. -/
theorem onIdleEngine_idle {s : State} (h : legalConfig s.cfg = true) (hp : s.ph = .idle)
    (run : Host.Outcome State Fault Refusal) : onIdleEngine s run = run := by
  simp [onIdleEngine, onEngine_legal h, hp]

/-- If an engine guard lets a next state through, the configuration is legal and the run gave that state. -/
theorem onEngine_next {s t : State} {run : Host.Outcome State Fault Refusal}
    (h : onEngine s run = .next t) : legalConfig s.cfg = true ∧ run = .next t := by
  unfold onEngine at h
  split at h
  · split at h
    · exact ⟨by simp_all [legalConfig], h⟩
    · cases h
  · cases h

/-- If the idle guard lets a next state through, the engine was idle and the run gave that state. -/
theorem onIdleEngine_next {s t : State} {run : Host.Outcome State Fault Refusal}
    (h : onIdleEngine s run = .next t) :
    legalConfig s.cfg = true ∧ s.ph = .idle ∧ run = .next t := by
  obtain ⟨hl, h⟩ := onEngine_next h
  split at h
  · exact ⟨hl, ‹_›, h⟩
  · cases h

/-! ## Ports -/

/-- The host may present a word unless it is a core word on an instance with a front-end. -/
theorem hostMayPresent_eq_false_iff (c : Config) (r : Request) :
    hostMayPresent c r = false ↔ c.hasFe = true ∧ ∃ w, r = .cp w := by
  cases r <;> simp [hostMayPresent]

/-- A presented word that decodes runs as its instruction if its port is the host's. -/
theorem runRequest_decoded {s : State} {r : Request} {i : Instr} (hp : hostMayPresent s.cfg r = true)
    (hd : decode r = some i) : runRequest r s = exec i s := by
  simp [runRequest, hp, hd]

/-- A core word on an instance with a front-end is refused. -/
theorem runRequest_internal {s : State} {r : Request} (hp : hostMayPresent s.cfg r = false) :
    runRequest r s = .refused .corePortInternal := by
  simp [runRequest, hp]

/-! ## Strobes -/

/-- The strobe in progress after a whole list of events. -/
def Pulse.afterAll (c : Config) (p : Pulse) (h : List Moment) : Pulse := h.foldl (Pulse.after c) p

/-- The strobes of two histories one after the other. -/
theorem strobesFrom_append (c : Config) (p : Pulse) (a b : List Moment) :
    strobesFrom c p (a ++ b) = strobesFrom c p a ++ strobesFrom c (p.afterAll c a) b := by
  induction a generalizing p with
  | nil => rfl
  | cons m rest ih => simp [strobesFrom, Pulse.afterAll, ih]

end Sys2Proof.Machine
end

