-- ==== Sys2Proof/Laws/PerInstr.lean ====
section
/-! SUPPORT. Family `RequestSize`: the encoding of a well-formed instruction has the size its format gives it
(spec/30_encoding.md R70, R74): a CP or PP word, or 1 to 259 bytes. -/

namespace Sys2Proof.Laws.RequestSize

/-- Size of a front-end request in bytes by rule R74; the CP and PP words have their one size by type. -/
def totalBytes : Instr → Nat
  | .wrc _ | .wrd _ | .clrpin _ | .setpin _ | .readpin _ => 0
  | .init | .clear | .home | .shiftl | .shiftr | .dispon | .dispoff | .curon | .curoff | .blinkon
  | .blinkoff => 1
  | .wrchar _ | .wrglyph _ => 2
  | .setcursor _ _ => 3
  | .wrcharat _ _ _ => 4
  | .wrint _ => 5
  | .defglyph _ _ => 10
  | .wrstr text => 2 + text.length
  | .wrstrat _ _ text => 4 + text.length

/-- Bytes of a front-end request, 0 for the other formats. -/
def feBytes : Request → Nat
  | .cp _ | .pp _ => 0
  | .fe bytes => bytes.length

def Statement (i : Instr) : Prop :=
  i.wellFormed = true → feBytes (encode i) = totalBytes i ∧ totalBytes i ≤ 259

theorem wrc (cmd : Byte) : Statement (.wrc cmd) := fun _ => ⟨rfl, by simp [totalBytes]⟩
theorem wrd (byte : Byte) : Statement (.wrd byte) := fun _ => ⟨rfl, by simp [totalBytes]⟩
theorem clrpin (id : PinId) : Statement (.clrpin id) := fun _ => ⟨rfl, by simp [totalBytes]⟩
theorem setpin (id : PinId) : Statement (.setpin id) := fun _ => ⟨rfl, by simp [totalBytes]⟩
theorem readpin (id : PinId) : Statement (.readpin id) := fun _ => ⟨rfl, by simp [totalBytes]⟩
theorem init : Statement .init := fun _ => ⟨rfl, by simp [totalBytes]⟩
theorem wrchar (ch : Byte) : Statement (.wrchar ch) := fun _ => ⟨rfl, by simp [totalBytes]⟩
theorem wrcharat (line col ch : Byte) : Statement (.wrcharat line col ch) :=
  fun _ => ⟨rfl, by simp [totalBytes]⟩
theorem wrstr (text : List Byte) : Statement (.wrstr text) := fun h => by
  simp only [Instr.wellFormed, textFits, decide_eq_true_eq] at h
  exact ⟨by simp [encode, feBytes, totalBytes]; omega, by simp only [totalBytes]; omega⟩
theorem wrstrat (line col : Byte) (text : List Byte) : Statement (.wrstrat line col text) := fun h => by
  simp only [Instr.wellFormed, textFits, decide_eq_true_eq] at h
  exact ⟨by simp [encode, feBytes, totalBytes]; omega, by simp only [totalBytes]; omega⟩
theorem clear : Statement .clear := fun _ => ⟨rfl, by simp [totalBytes]⟩
theorem home : Statement .home := fun _ => ⟨rfl, by simp [totalBytes]⟩
theorem shiftl : Statement .shiftl := fun _ => ⟨rfl, by simp [totalBytes]⟩
theorem shiftr : Statement .shiftr := fun _ => ⟨rfl, by simp [totalBytes]⟩
theorem setcursor (line col : Byte) : Statement (.setcursor line col) := fun _ => ⟨rfl, by simp [totalBytes]⟩
theorem dispon : Statement .dispon := fun _ => ⟨rfl, by simp [totalBytes]⟩
theorem dispoff : Statement .dispoff := fun _ => ⟨rfl, by simp [totalBytes]⟩
theorem curon : Statement .curon := fun _ => ⟨rfl, by simp [totalBytes]⟩
theorem curoff : Statement .curoff := fun _ => ⟨rfl, by simp [totalBytes]⟩
theorem blinkon : Statement .blinkon := fun _ => ⟨rfl, by simp [totalBytes]⟩
theorem blinkoff : Statement .blinkoff := fun _ => ⟨rfl, by simp [totalBytes]⟩
theorem defglyph (index : Byte) (bitmap : List Byte) : Statement (.defglyph index bitmap) := fun h => by
  simp only [Instr.wellFormed, bitmapFits, beq_iff_eq] at h
  exact ⟨by simp [encode, feBytes, totalBytes, h], by simp [totalBytes]⟩
theorem wrglyph (index : Byte) : Statement (.wrglyph index) := fun _ => ⟨rfl, by simp [totalBytes]⟩
theorem wrint (v : BitVec 32) : Statement (.wrint v) := fun _ => ⟨rfl, by simp [totalBytes]⟩

end Sys2Proof.Laws.RequestSize
end

