-- ==== Sys2Proof/Tests/Slice0.lean ====
section
/-! SUPPORT. Tests: expected values are those of spec/95_test_vectors.md and of the encodings of
spec/30_encoding.md, never the model's own; and for every statement with hypotheses a concrete state and operands
that meet them. -/

namespace Sys2Proof.Tests

set_option Elab.async false

open Sys2Proof.Machine Sys2Proof.Spec

/-! ## Helpers -/

/-- A two-line configuration of 16 columns. -/
def config (w : BusWidth) (rw : Bool) (pollMax : Nat) : Config :=
  { Config.atReset with
    busw := w, rwPresent := rw, pollMax := pollMax,
    funcsetCmd := match w with
      | .four => 0x28
      | .eight => 0x38 }

/-- `n` pin answers: transaction `k` (from 0) fails if `k` is in `fails`, its free bit is 1 if `k` is in `ones`. -/
def answers (n : Nat) (fails ones : List Nat) : List PinDraw :=
  (List.range n).map fun k => ⟨fails.contains k, ones.contains k⟩

/-- An engine after reset, every line low, with pin answers in hand. -/
def engine (c : Config) (ds : List PinDraw) : State :=
  { State.resetOf c with lines := ⟨false, false, false, 0x00⟩, draws := ds }

/-- An engine after `INIT` with the cursor at a cell. -/
def ready (c : Config) (ds : List PinDraw) (line col : Nat) : State :=
  { engine c ds with ist := .ready, cur := ⟨BitVec.ofNat 1 line, BitVec.ofNat 5 col⟩, dcb := 0b100 }

/-- 8-bit bus without read/write line, every answer `ok`. -/
def fix8 : Config := config .eight false 4
/-- 4-bit bus without read/write line. -/
def fix4 : Config := config .four false 4
/-- 8-bit bus with read/write line. -/
def poll8 : Config := config .eight true 4
/-- 4-bit bus with read/write line. -/
def poll4 : Config := config .four true 4

/-- An outcome is a next state with a property. -/
def nextWith (o : Host.Outcome State Fault Refusal) (p : State → Bool) : Bool :=
  match o with
  | .next t => p t
  | .fault _ => false
  | .refused _ => false

theorem exists_of_nextWith {o : Host.Outcome State Fault Refusal} {p : State → Bool} (h : nextWith o p = true) :
    ∃ t, o = .next t ∧ p t = true := by
  cases o with
  | next t => exact ⟨t, rfl, h⟩
  | fault _ => cases h
  | refused _ => cases h

/-- What a front-end request sends, with its statuses and the front-end registers after it. -/
def sends (i : Instr) (s : State) : Option (List (Bit × Byte) × List Status × Cursor × BitVec 3) :=
  match exec i s with
  | .next t =>
    some (bytesSent s.cfg.busw (strobes s.cfg (t.history.drop s.history.length)), t.feResponses, t.cur, t.dcb)
  | .fault _ => none
  | .refused _ => none

theorem acceptsOf {s : State} (h : (legalConfig s.cfg && s.ph == .idle && s.rstIn == none) = true) : Accepts s := by
  simpa [Accepts, and_assoc] using h

theorem frontEndAcceptsOf {s : State}
    (h : (legalConfig s.cfg && s.ph == .idle && s.rstIn == none && s.cfg.hasFe) = true) : FrontEndAccepts s := by
  simpa [FrontEndAccepts, Accepts, and_assoc] using h

/-- `S(id)` -/
abbrev S (id : PinId) : Event := .wrote id true
/-- `C(id)` -/
abbrev C (id : PinId) : Event := .wrote id false
/-- `R(id)=b` -/
abbrev R (id : PinId) (b : Bit) : Event := .readBit id b
/-- `W(T)` -/
abbrev W (t : WaitParam) : Event := .waited t

/-! ## WellFormed refuses ill-formed terms -/

theorem test_wellFormed_wrstr : (Instr.wrstr (List.replicate 256 0x41)).wellFormed = false := by decide +kernel
theorem test_wellFormed_wrstrat : (Instr.wrstrat 0 0 (List.replicate 256 0x41)).wellFormed = false := by decide +kernel
theorem test_wellFormed_bitmap_short : (Instr.defglyph 0 (List.replicate 7 0x1F)).wellFormed = false := by decide
theorem test_wellFormed_bitmap_long : (Instr.defglyph 0 (List.replicate 9 0x1F)).wellFormed = false := by decide
theorem test_wellFormed_longest : (Instr.wrstr (List.replicate 255 0x41)).wellFormed = true := by decide +kernel

/-! ## Words of spec/30_encoding.md R71 (CP: `rs`, then the byte) -/

theorem test_decode_wrc : decode (.cp 0b0_00111000#9) = some (.wrc 0x38) := by decide
theorem test_decode_wrd : decode (.cp 0b1_10100101#9) = some (.wrd 0xA5) := by decide

/-! ## Words of R72 (PP: two bits `op`, four bits pin), V33 -/

theorem test_decode_clrpin : decode (.pp 0b00_0001#6) = some (.clrpin .rw) ∧
    decode (.pp 0b00_1101#6) = some (.clrpin (.dl 5)) := by decide
theorem test_decode_setpin : decode (.pp 0b01_0000#6) = some (.setpin .rs) ∧
    decode (.pp 0b01_1111#6) = some (.setpin (.dl 7)) := by decide
theorem test_decode_readpin : decode (.pp 0b10_1011#6) = some (.readpin (.dl 3)) ∧
    decode (.pp 0b10_0010#6) = some (.readpin .e) := by decide
theorem test_decode_reserved_pin_words : decode (.pp 0b11_0000#6) = none ∧ decode (.pp 0b00_0011#6) = none ∧
    decode (.pp 0b01_0111#6) = none := by decide

/-! ## Requests of R74, V32 -/

theorem test_decode_init : decode (.fe [0x00]) = some .init := by decide
theorem test_decode_wrchar : decode (.fe [0x01, 0x41]) = some (.wrchar 0x41) := by decide
theorem test_decode_wrcharat : decode (.fe [0x02, 0x01, 0x0F, 0x5A]) = some (.wrcharat 1 15 0x5A) := by decide
theorem test_decode_wrstr : decode (.fe [0x03, 0x02, 0x48, 0x69]) = some (.wrstr [0x48, 0x69]) ∧
    decode (.fe [0x03, 0x00]) = some (.wrstr []) := by decide
theorem test_decode_wrstrat : decode (.fe [0x04, 0x01, 0x05, 0x03, 0x61, 0x62, 0x63]) =
    some (.wrstrat 1 5 [0x61, 0x62, 0x63]) := by decide
theorem test_decode_clear : decode (.fe [0x05]) = some .clear := by decide
theorem test_decode_home : decode (.fe [0x06]) = some .home := by decide
theorem test_decode_shiftl : decode (.fe [0x07]) = some .shiftl := by decide
theorem test_decode_shiftr : decode (.fe [0x08]) = some .shiftr := by decide
theorem test_decode_setcursor : decode (.fe [0x09, 0x01, 0x05]) = some (.setcursor 1 5) := by decide
theorem test_decode_dispon : decode (.fe [0x0A]) = some .dispon := by decide
theorem test_decode_dispoff : decode (.fe [0x0B]) = some .dispoff := by decide
theorem test_decode_curon : decode (.fe [0x0C]) = some .curon := by decide
theorem test_decode_curoff : decode (.fe [0x0D]) = some .curoff := by decide
theorem test_decode_blinkon : decode (.fe [0x0E]) = some .blinkon := by decide
theorem test_decode_blinkoff : decode (.fe [0x0F]) = some .blinkoff := by decide
theorem test_decode_defglyph : decode (.fe [0x10, 0x03, 0x0E, 0x1B, 0x11, 0x11, 0x11, 0x11, 0x1F, 0x00]) =
    some (.defglyph 3 [0x0E, 0x1B, 0x11, 0x11, 0x11, 0x11, 0x1F, 0x00]) := by decide
theorem test_decode_wrglyph : decode (.fe [0x11, 0x03]) = some (.wrglyph 3) := by decide
theorem test_decode_wrint : decode (.fe [0x12, 0xFF, 0xFF, 0xFF, 0xD6]) = some (.wrint (BitVec.ofInt 32 (-42))) ∧
    decode (.fe [0x12, 0x7F, 0xFF, 0xFF, 0xFF]) = some (.wrint (BitVec.ofInt 32 2147483647)) := by decide
theorem test_decode_refused : decode (.fe [0x13]) = none ∧ decode (.fe [0xFF, 0x00]) = none ∧
    decode (.fe [0x09, 0x01]) = none ∧ decode (.fe [0x03, 0x05, 0x48, 0x69]) = none ∧
    decode (.fe [0x00, 0x00]) = none := by decide

/-! ## Table words (log 14) -/

theorem test_table_words : decodeTableWord 16 0x1A5 = some (.wrd 0xA5) ∧ decodeTableWord 9 0x001 = some (.wrc 0x01) ∧
    decodeTableWord 6 0x12 = some (.setpin .e) ∧ decodeTableWord 8 0x20 = some (.readpin .rs) ∧
    decodeTableWord 8 0x12 = some (.wrint 0) ∧ decodeTableWord 8 0x09 = some (.setcursor 0 0) ∧
    decodeTableWord 24 0x050109 = some (.setcursor 1 5) := by decide +kernel

/-! ## Pseudo-requests (spec/30_encoding.md R82) and the command table (R77) -/

theorem test_pseudo_requests : (PseudoRequest.funcset 1 1 0).expand = .wrc 0x38 ∧
    (PseudoRequest.entry 1 0).expand = .wrc 0x06 ∧ (PseudoRequest.display 1 0 1).expand = .wrc 0x0D ∧
    (PseudoRequest.cgaddr 0x18).expand = .wrc 0x58 ∧ (PseudoRequest.ddaddr 0x45).expand = .wrc 0xC5 ∧
    commandClass 0x38 = some .functionSet ∧ commandClass 0x18 = some .shift := by decide

/-! ## Core requests -/

/-- V1 -/
theorem test_wrd_four_bit_trace : nextWith (exec (.wrd 0xA5) (engine fix4 (answers 13 [] []))) (fun t =>
    t.trace == [S .rs, C (.dl 0), S (.dl 1), C (.dl 2), S (.dl 3), W .tAs, S .e, W .tPw, C .e, W .tH,
      S (.dl 0), C (.dl 1), S (.dl 2), C (.dl 3), W .tAs, S .e, W .tPw, C .e, W .tH, W .tShort] &&
    t.ph == .idle && t.nib && t.di == 3 && t.pcnt == 0 && t.res == .ok && t.doe &&
    t.lines == ⟨true, false, false, 0x05⟩) = true := by decide +kernel

/-- V7 -/
theorem test_wrd_busy_poll : nextWith (exec (.wrd 0x41) (engine poll8 (answers 23 [] [15, 18]))) (fun t =>
    t.trace == [S .rs, C .rw, S (.dl 0), C (.dl 1), C (.dl 2), C (.dl 3), C (.dl 4), C (.dl 5), S (.dl 6), C (.dl 7),
      W .tAs, S .e, W .tPw, C .e, W .tH, C .rs, S .rw, W .tAs, S .e, W .tPw, R (.dl 7) true, C .e, W .tH,
      S .e, W .tPw, R (.dl 7) true, C .e, W .tH, S .e, W .tPw, R (.dl 7) false, C .e, W .tH] &&
    t.pcnt == 3 && t.res == .ok && !t.doe && t.lines == ⟨false, true, false, 0x41⟩) = true := by decide +kernel

/-- V3 -/
theorem test_wrc_long_wait : nextWith (exec (.wrc 0x01) (engine fix8 (answers 11 [] []))) (fun t =>
    t.trace == [C .rs, S (.dl 0), C (.dl 1), C (.dl 2), C (.dl 3), C (.dl 4), C (.dl 5), C (.dl 6), C (.dl 7),
      W .tAs, S .e, W .tPw, C .e, W .tH, W .tLong] && t.coreResponses == [.ok]) = true := by decide +kernel

/-- V8 -/
theorem test_wrc_four_bit_poll : nextWith (exec (.wrc 0x38) (engine poll4 (answers 21 [] []))) (fun t =>
    t.trace == [C .rs, C .rw, S (.dl 0), S (.dl 1), C (.dl 2), C (.dl 3), W .tAs, S .e, W .tPw, C .e, W .tH,
      C (.dl 0), C (.dl 1), C (.dl 2), S (.dl 3), W .tAs, S .e, W .tPw, C .e, W .tH,
      C .rs, S .rw, W .tAs, S .e, W .tPw, R (.dl 3) false, C .e, W .tH, S .e, W .tPw, C .e, W .tH] &&
    t.res == .ok && t.lines == ⟨false, true, false, 0x08⟩) = true := by decide +kernel

/-- V10 -/
theorem test_poll_timeout : nextWith (exec (.wrc 0x01) (engine (config .eight true 2) (answers 20 [] [15, 18])))
    (fun t => t.res == .hardwareTimeout && t.pcnt == 2 && pinOperations t.trace == 20 && !t.doe &&
      t.lines == ⟨false, true, false, 0x01⟩ && t.coreResponses == [.hardwareTimeout]) = true := by decide +kernel

/-- V18: operation 21 fails -/
theorem test_pin_fault_in_poll : nextWith (exec (.wrd 0x41) (engine poll4 (answers 21 [20] [17]))) (fun t =>
    t.res == .pinFault && pinOperations t.trace == 21 && t.trace.getLast? == some (.writeFailed .e false) &&
    t.pcnt == 0 && !t.doe && t.coreResponses == [.pinFault]) = true := by decide +kernel

/-- V19: `DL5` is unbound -/
theorem test_unbound_pin : nextWith (exec (.wrd 0x41) (engine
    { fix8 with boundPins := [.rs, .e, .dl 0, .dl 1, .dl 2, .dl 3, .dl 4, .dl 6, .dl 7] } (answers 7 [] [])))
    (fun t => t.trace == [S .rs, S (.dl 0), C (.dl 1), C (.dl 2), C (.dl 3), C (.dl 4),
      .writeFailed (.dl 5) false] && t.res == .pinFault) = true := by decide +kernel

/-- V34 (`HAS_FE = false`): `rst` during V7 after the end of the strobe -/
theorem test_rst_inside_request : nextWith
    (step { engine { poll8 with hasFe := false } (answers 23 [] [15, 18]) with host := [.cut (.cp 0x141) 14] }) (fun t =>
      t.ph == .idle && !t.doe && t.coreResponses == [] && pinOperations t.trace == 12 &&
      t.lines == ⟨true, false, false, 0x41⟩ && t.ist == .uninitialized) = true := by decide +kernel

/-- R39: with a front-end the core port is internal. -/
theorem test_core_port_internal :
    (match step { engine fix8 [] with host := [.request (.cp 0x141)] } with
    | .refused r => r == .corePortInternal
    | .next _ => false
    | .fault _ => false) = true := by decide +kernel

/-- P2, request 1: strobe list `0:C5 poll poll`. -/
theorem test_strobe_list : nextWith (exec (.wrc 0xC5) (engine poll8 (answers 20 [] [15]))) (fun t =>
    strobes poll8 t.history == [⟨false, false, .engine 0xC5⟩, ⟨false, true, .controller (some true)⟩,
      ⟨false, true, .controller (some false)⟩]) = true := by decide +kernel

/-- R59: no strobe without `W(T_PW)` between the two transactions. -/
theorem test_no_strobe_without_wait :
    strobes fix8 [⟨S .e, true, ⟨false, false, true, 0x41⟩⟩, ⟨C .e, true, ⟨false, false, false, 0x41⟩⟩] = [] := by
  decide +kernel

/-! ## Pin operations (spec/40_bus_framing.md R91 to R93) -/

theorem test_setpin : nextWith (exec (.setpin (.dl 6)) (engine fix8 (answers 1 [] []))) (fun t =>
    t.lines == ⟨false, false, false, 0x40⟩ && t.trace == [S (.dl 6)]) = true := by decide +kernel
theorem test_clrpin : nextWith (exec (.clrpin (.dl 6))
    { engine fix8 (answers 1 [] []) with lines := ⟨true, true, true, 0xFF⟩ }) (fun t =>
    t.lines == ⟨true, true, true, 0xBF⟩ && t.trace == [C (.dl 6)]) = true := by decide +kernel
theorem test_readpin_released : nextWith (exec (.readpin (.dl 7)) (engine poll8 (answers 1 [] [0]))) (fun t =>
    t.trace == [R (.dl 7) true]) = true := by decide +kernel
theorem test_readpin_driven : nextWith (exec (.readpin (.dl 7))
    { engine poll8 (answers 1 [] [0]) with doe := true }) (fun t => t.trace == [R (.dl 7) false]) = true := by
  decide +kernel

/-! ## Front-end requests: V20 to V30 -/

theorem test_setcursor : sends (.setcursor 1 5) (ready fix8 (answers 11 [] []) 0 3) =
    some ([(false, 0xC5)], [.ok], ⟨1, 5⟩, 0b100) := by decide +kernel
theorem test_setcursor_out_of_bounds : sends (.setcursor 0 16) (ready fix8 [] 0 3) =
    some ([], [.outOfBounds], ⟨0, 3⟩, 0b100) := by decide +kernel
/-- V25 -/
theorem test_setcursor_wraps : sends (.setcursor 1 8)
    (ready { fix8 with lineOffset := [0x00, 0x78] } (answers 11 [] []) 0 0) =
    some ([(false, 0x80)], [.ok], ⟨1, 8⟩, 0b100) := by decide +kernel
theorem test_wrchar : sends (.wrchar 0x42) (ready fix4 (answers 13 [] []) 0 15) =
    some ([(true, 0x42)], [.ok], ⟨0, 16⟩, 0b100) := by decide +kernel
theorem test_wrchar_full : sends (.wrchar 0x43) (ready fix8 [] 0 16) =
    some ([], [.ok], ⟨0, 16⟩, 0b100) := by decide +kernel
theorem test_wrcharat : sends (.wrcharat 1 15 0x5A) (ready fix8 (answers 22 [] []) 0 0) =
    some ([(false, 0xCF), (true, 0x5A)], [.ok], ⟨1, 16⟩, 0b100) := by decide +kernel
theorem test_wrstr_truncates : sends (.wrstr [0x48, 0x45, 0x4C, 0x4C, 0x4F]) (ready fix8 (answers 22 [] []) 0 14) =
    some ([(true, 0x48), (true, 0x45)], [.ok], ⟨0, 16⟩, 0b100) := by decide +kernel
/-- V22: operation 25 fails -/
theorem test_wrstr_keeps_count : sends (.wrstr [0x41, 0x42, 0x43]) (ready fix8 (answers 25 [24] []) 0 0) =
    some ([(true, 0x41), (true, 0x42)], [.pinFault], ⟨0, 2⟩, 0b100) := by decide +kernel
theorem test_wrstrat : sends (.wrstrat 1 15 [0x58, 0x59]) (ready fix8 (answers 22 [] []) 0 0) =
    some ([(false, 0xCF), (true, 0x58)], [.ok], ⟨1, 16⟩, 0b100) := by decide +kernel
theorem test_clear : sends .clear (ready fix8 (answers 11 [] []) 1 7) =
    some ([(false, 0x01)], [.ok], ⟨0, 0⟩, 0b100) := by decide +kernel
/-- P5: the timeout leaves the cursor alone -/
theorem test_clear_timeout : sends .clear (ready (config .eight true 2) (answers 20 [] [15, 18]) 1 8) =
    some ([(false, 0x01)], [.hardwareTimeout], ⟨1, 8⟩, 0b100) := by decide +kernel
theorem test_home : sends .home (ready fix8 (answers 11 [] []) 1 7) =
    some ([(false, 0x02)], [.ok], ⟨0, 0⟩, 0b100) := by decide +kernel
theorem test_shiftl : sends .shiftl (ready fix8 (answers 11 [] []) 1 7) =
    some ([(false, 0x18)], [.ok], ⟨1, 7⟩, 0b100) := by decide +kernel
theorem test_shiftr : sends .shiftr (ready fix8 (answers 11 [] []) 1 7) =
    some ([(false, 0x1C)], [.ok], ⟨1, 7⟩, 0b100) := by decide +kernel
theorem test_dispon : sends .dispon { ready fix8 (answers 11 [] []) 0 0 with dcb := 0b011 } =
    some ([(false, 0x0F)], [.ok], ⟨0, 0⟩, 0b111) := by decide +kernel
theorem test_dispoff : sends .dispoff { ready fix8 (answers 11 [] []) 0 0 with dcb := 0b111 } =
    some ([(false, 0x0B)], [.ok], ⟨0, 0⟩, 0b011) := by decide +kernel
theorem test_curon : sends .curon (ready fix8 (answers 11 [] []) 0 0) =
    some ([(false, 0x0E)], [.ok], ⟨0, 0⟩, 0b110) := by decide +kernel
/-- V24: operation 3 fails -/
theorem test_curon_fault : sends .curon (ready fix8 (answers 3 [2] []) 0 0) =
    some ([], [.pinFault], ⟨0, 0⟩, 0b100) := by decide +kernel
theorem test_curoff : sends .curoff { ready fix8 (answers 11 [] []) 0 0 with dcb := 0b111 } =
    some ([(false, 0x0D)], [.ok], ⟨0, 0⟩, 0b101) := by decide +kernel
theorem test_blinkon : sends .blinkon { ready fix8 (answers 11 [] []) 0 0 with dcb := 0b110 } =
    some ([(false, 0x0F)], [.ok], ⟨0, 0⟩, 0b111) := by decide +kernel
theorem test_blinkoff : sends .blinkoff { ready fix8 (answers 11 [] []) 0 0 with dcb := 0b101 } =
    some ([(false, 0x0C)], [.ok], ⟨0, 0⟩, 0b100) := by decide +kernel
/-- P3 -/
theorem test_defglyph : sends (.defglyph 3 [0x0E, 0x1B, 0x11, 0x11, 0x11, 0x11, 0x1F, 0x00])
    (ready fix8 (answers 110 [] []) 1 5) =
    some ([(false, 0x58), (true, 0x0E), (true, 0x1B), (true, 0x11), (true, 0x11), (true, 0x11), (true, 0x11),
      (true, 0x1F), (true, 0x00), (false, 0xC5)], [.ok], ⟨1, 5⟩, 0b100) := by decide +kernel
/-- V26: operation 35 fails -/
theorem test_defglyph_fault : sends (.defglyph 3 [0x0E, 0x1B, 0x11, 0x11, 0x11, 0x11, 0x1F, 0x00])
    (ready fix8 (answers 35 [34] []) 0 0) =
    some ([(false, 0x58), (true, 0x0E), (true, 0x1B)], [.pinFault], ⟨0, 0⟩, 0b100) := by decide +kernel
theorem test_wrglyph : sends (.wrglyph 7) (ready fix8 (answers 11 [] []) 1 15) =
    some ([(true, 0x07)], [.ok], ⟨1, 16⟩, 0b100) := by decide +kernel
theorem test_wrglyph_out_of_bounds : sends (.wrglyph 8) (ready fix8 [] 0 0) =
    some ([], [.outOfBounds], ⟨0, 0⟩, 0b100) := by decide +kernel
theorem test_wrint : sends (.wrint (BitVec.ofInt 32 (-42))) (ready fix8 (answers 33 [] []) 0 0) =
    some ([(true, 0x2D), (true, 0x34), (true, 0x32)], [.ok], ⟨0, 3⟩, 0b100) := by decide +kernel
theorem test_decimal_most_negative : decimalText (BitVec.ofInt 32 (-2147483648)) =
    [0x2D, 0x32, 0x31, 0x34, 0x37, 0x34, 0x38, 0x33, 0x36, 0x34, 0x38] := by decide +kernel
/-- V30, first row -/
theorem test_init : sends .init (engine fix4 (answers 65 [] [])) =
    some ([(false, 0x28), (false, 0x08), (false, 0x01), (false, 0x06), (false, 0x0C)], [.ok], ⟨0, 0⟩, 0b100) := by
  decide +kernel
/-- P4, request 2 -/
theorem test_init_fault : nextWith (exec .init (engine fix8 (answers 20 [19] []))) (fun t =>
    t.ist == .uninitialized && t.feResponses == [.pinFault] && pinOperations t.trace == 20) = true := by decide +kernel
/-- V29: the gate comes first -/
theorem test_gate : sends (.setcursor 9 99) (engine fix8 []) =
    some ([], [.notInitialized], ⟨0, 0⟩, 0b000) := by decide +kernel

/-! ## Validation: V31 -/

theorem test_valid_rows : valid fix4 = true ∧ valid fix8 = true ∧ valid { fix8 with displayCmd := 0x08 } = true ∧
    valid { fix4 with lines := 1, cols := 20, funcsetCmd := 0x24, entryCmd := 0x05, displayCmd := 0x08 } = true := by
  decide +kernel
theorem test_invalid_rows : construct { fix4 with funcsetCmd := 0x38 } = .invalidConfiguration ∧
    construct { fix8 with lines := 1 } = .invalidConfiguration ∧
    construct { fix8 with funcsetCmd := 0x78 } = .invalidConfiguration ∧
    construct { fix8 with entryCmd := 0x08 } = .invalidConfiguration ∧
    construct { fix8 with displayCmd := 0x10 } = .invalidConfiguration ∧
    construct { fix8 with lines := 4, cols := 20 } = .invalidConfiguration ∧
    construct { fix8 with cols := 40 } = .invalidConfiguration := by
  simp only [construct]
  refine ⟨?_, ?_, ?_, ?_, ?_, ?_, ?_⟩ <;> rfl

/-! ## The host's two questions, on the interface -/

theorem test_step_runs_fetched_word : nextWith (step (State.reset.withFetchWord 16 0x138)) (fun _ => true) = true := by
  decide +kernel

/-! ## Witnesses: concrete states and operands that meet the hypotheses of each statement -/

/-- 8-bit, polling, busy answers as chosen. -/
def polling (fails ones : List Nat) : State := engine poll8 (answers 40 fails ones)

/-- An idle 8-bit engine without read/write line whose pins all answer `ok`. -/
def idle8 : State := engine fix8 (answers 120 [] [])

/-- The same with the front-end initialised, the cursor at a cell. -/
def ready8 (line col : Nat) : State := ready fix8 (answers 120 [] []) line col

/-- An engine about to perform a phase. -/
def at_ (p : Phase) (c : Config) (fails ones : List Nat) : State := { engine c (answers 4 fails ones) with ph := p }

theorem busyOf {p : Phase} {s : State}
    (h : (legalConfig s.cfg && s.ph == p && !(s.host.head? == some .rst)) = true) : Busy p s := by
  simpa [Busy, and_assoc] using h

theorem witness_RstResetsWithoutPinOperation :
    legalConfig ({ at_ .pRead poll8 [] [] with host := [.rst] } : State).cfg = true ∧
    ({ at_ .pRead poll8 [] [] with host := [.rst] } : State).host = .rst :: [] := by decide +kernel

/-- The premise of each clause of `ConstructionFollowsValidation`. -/
abbrev StatedValid (c : Config) : Prop :=
  (c.lines = 1 ∨ c.lines = 2) ∧ (c.cols = 8 ∨ c.cols = 16 ∨ c.cols = 20) ∧
    c.funcsetCmd.toNat / 32 = 1 ∧ (c.funcsetCmd.getLsbD 4 = true ↔ c.busw = .eight) ∧
    (c.funcsetCmd.getLsbD 3 = true ↔ c.lines = 2) ∧ c.entryCmd ∈ c.entrySet ∧ c.displayCmd ∈ c.displaySet

/-- The stated ranges of `ConstructionFollowsValidation`. -/
abbrev StatedRanges (c : Config) : Prop :=
  1 ≤ c.pollMax ∧ c.tShort < c.tLong ∧ c.lineOffset.length = c.lines ∧ 0x01 ∈ c.longCmd ∧
    0x02 ∈ c.longCmd ∧ c.lvlCmd ≠ c.lvlData ∧ c.lvlWrite ≠ c.lvlRead ∧ c.lvlEAct ≠ c.lvlEIdle

theorem witness_ConstructionFollowsValidation :
    (¬ StatedValid { fix8 with funcsetCmd := 0x28 } ∧
      (engine { fix8 with funcsetCmd := 0x28 } []).cfg = { fix8 with funcsetCmd := 0x28 }) ∧
    (StatedValid fix8 ∧ StatedRanges fix8) ∧
    (StatedValid { fix8 with pollMax := 0 } ∧ ¬ StatedRanges { fix8 with pollMax := 0 }) ∧
    (StatedValid { fix8 with tShort := 40 } ∧ ¬ StatedRanges { fix8 with tShort := 40 }) :=
  ⟨⟨by decide +kernel, rfl⟩, ⟨by decide +kernel, by decide +kernel⟩, ⟨by decide +kernel, by decide +kernel⟩,
    by decide +kernel, by decide +kernel⟩

theorem witness_ValidFunctionSetRanges :
    (∀ b ∈ [0x20#8, 0x27#8], valid { fix4 with lines := 1, funcsetCmd := b } = true) ∧
    (∀ b ∈ [0x28#8, 0x2F#8], valid { fix4 with funcsetCmd := b } = true) ∧
    (∀ b ∈ [0x30#8, 0x37#8], valid { fix8 with lines := 1, funcsetCmd := b } = true) ∧
    (∀ b ∈ [0x38#8, 0x3F#8], valid { fix8 with funcsetCmd := b } = true) := by decide +kernel

theorem witness_DecodeOfEncodeIsIdentity :
    (Instr.wrstr (List.replicate 255 0xFF)).wellFormed = true ∧ (Instr.wrstrat 255 255 []).wellFormed = true ∧
    (Instr.defglyph 255 (List.replicate 8 0xFF)).wellFormed = true ∧ (Instr.wrint 0x80000000).wellFormed = true := by
  decide +kernel

theorem witness_EncodeOfDecodeIsIdentity :
    decode (.fe [0x04, 0xFF, 0xFF, 0x00]) = some (.wrstrat 0xFF 0xFF []) ∧
    decode (.pp 0x2F) = some (.readpin (.dl 7)) ∧ decode (.cp 0x1FF) = some (.wrd 0xFF) := by decide +kernel

theorem witness_FrontEndRequestLengths :
    ∀ bytes ∈ [[], [0x13], [0x03], [0x03, 0x01], [0x00, 0x00], [(0xFF : Byte)]],
      legalConfig ({ idle8 with host := [.request (.fe bytes)] } : State).cfg = true ∧
      ({ idle8 with host := [.request (.fe bytes)] } : State).ph = .idle ∧
      ({ idle8 with host := [.request (.fe bytes)] } : State).host = .request (.fe bytes) :: [] ∧
      requestLength bytes ≠ some bytes.length := by decide +kernel

theorem witness_ReservedPinWordsRefused_step :
    ∀ w ∈ [0x30#6, 0x3F#6, 0x03#6, 0x27#6],
      legalConfig ({ idle8 with host := [.request (.pp w)] } : State).cfg = true ∧
      ({ idle8 with host := [.request (.pp w)] } : State).ph = .idle ∧
      ({ idle8 with host := [.request (.pp w)] } : State).host = .request (.pp w) :: [] ∧
      (w.toNat / 16 = 3 ∨ (3 ≤ w.toNat % 16 ∧ w.toNat % 16 ≤ 7)) := by decide +kernel

theorem witness_ReservedPinWordsRefused :
    legalConfig (engine fix4 []).cfg = true ∧ (engine fix4 []).cfg.busw = .four ∧ 4 ≤ (4 : Fin 8).val ∧
      4 ≤ (7 : Fin 8).val := by decide +kernel

/-- A core word without a front-end and with one, and a front-end request. -/
theorem witness_StepRunsDecodedRequest :
    (∀ fe ∈ [true, false],
      legalConfig ({ engine { fix8 with hasFe := fe } [] with host := [.request (.cp 0x138), .rst] } : State).cfg = true ∧
      ({ engine { fix8 with hasFe := fe } [] with host := [.request (.cp 0x138), .rst] } : State).ph = .idle) ∧
    decode (.cp 0x138) = some (.wrd 0x38) ∧ decode (.fe [0x05]) = some .clear ∧ idle8.cfg.hasFe = true := by
  decide +kernel

theorem witness_BusyEngineHoldsRequests :
    (legalConfig (at_ .fEhi fix8 [] []).cfg = true ∧ (at_ .fEhi fix8 [] []).ph ≠ .idle ∧
      ({ at_ .fEhi fix8 [] [] with host := [.request (.cp 0x138)] } : State).host.head? ≠ some .rst) ∧
    (idle8.ph = .idle ∧ idle8.host = []) := by decide +kernel

theorem witness_Accepts : Accepts idle8 ∧ Accepts (polling [] []) ∧ Accepts (engine fix4 []) ∧
    Accepts (engine poll4 []) :=
  ⟨acceptsOf (by decide +kernel), acceptsOf (by decide +kernel), acceptsOf (by decide +kernel),
    acceptsOf (by decide +kernel)⟩

theorem witness_WholeRequestAgreesWithPhases :
    Accepts { idle8 with host := [.request (.fe [0x05]), .rst] } ∧
    ({ idle8 with host := [.request (.fe [0x05]), .rst] } : State).host.head? ≠ some .rst :=
  ⟨acceptsOf (by decide +kernel), by decide +kernel⟩

theorem witness_EveryCoreRequestIsAnswered :
    (Accepts idle8 ∧ idle8.cfg.rwPresent = false ∧ idle8.cfg.busw = .eight) ∧
    (Accepts (engine poll4 []) ∧ (engine poll4 []).cfg.busw = .four) :=
  ⟨⟨acceptsOf (by decide +kernel), rfl, rfl⟩, acceptsOf (by decide +kernel), rfl⟩

theorem witness_FixedDelayTransfer :
    (Accepts idle8 ∧ idle8.cfg.rwPresent = false ∧ PinsAnswerOk (emitOps idle8.cfg) idle8) ∧
    (Accepts (engine fix4 (answers 13 [] [])) ∧ (engine fix4 (answers 13 [] [])).cfg.rwPresent = false ∧
      PinsAnswerOk (emitOps fix4) (engine fix4 (answers 13 [] []))) :=
  ⟨⟨acceptsOf (by decide +kernel), rfl, by decide +kernel, by decide +kernel⟩,
    acceptsOf (by decide +kernel), rfl, by decide +kernel, by decide +kernel⟩

/-- First read and last allowed read. -/
theorem witness_BusyPollEndsOk :
    (Accepts (polling [] []) ∧ (polling [] []).cfg.rwPresent = true ∧ 0 < (polling [] []).cfg.pollMax ∧
      PinsAnswerOk (emitOps poll8 + 2 + iterationOps poll8 * 1) (polling [] []) ∧
      busyAnswer (polling [] []) 0 ≠ poll8.busy) ∧
    (Accepts (polling [] [15, 18, 21]) ∧ (polling [] [15, 18, 21]).cfg.rwPresent = true ∧
      3 < (polling [] [15, 18, 21]).cfg.pollMax ∧
      PinsAnswerOk (emitOps poll8 + 2 + iterationOps poll8 * 4) (polling [] [15, 18, 21]) ∧
      (∀ j < 3, busyAnswer (polling [] [15, 18, 21]) j = poll8.busy) ∧
      busyAnswer (polling [] [15, 18, 21]) 3 ≠ poll8.busy) :=
  ⟨⟨acceptsOf (by decide +kernel), rfl, by decide +kernel, ⟨by decide +kernel, by decide +kernel⟩, by decide +kernel⟩,
    acceptsOf (by decide +kernel), rfl, by decide +kernel, ⟨by decide +kernel, by decide +kernel⟩, by decide +kernel,
    by decide +kernel⟩

theorem witness_BusyPollTimesOut :
    Accepts (polling [] [15, 18, 21, 24]) ∧ (polling [] [15, 18, 21, 24]).cfg.rwPresent = true ∧
      PinsAnswerOk (emitOps poll8 + 2 + iterationOps poll8 * poll8.pollMax) (polling [] [15, 18, 21, 24]) ∧
      ∀ j < poll8.pollMax, busyAnswer (polling [] [15, 18, 21, 24]) j = poll8.busy :=
  ⟨acceptsOf (by decide +kernel), rfl, ⟨by decide +kernel, by decide +kernel⟩, by decide +kernel⟩

theorem witness_PinFaultTraceIsPrefix :
    Accepts (polling [20] [15, 18]) ∧
    ∃ t, exec (coreInstr true 0x41) (polling [20] [15, 18]) = .next t ∧ (t.res == .pinFault) = true :=
  ⟨acceptsOf (by decide +kernel), exists_of_nextWith (by decide +kernel)⟩

/-- The hypotheses of `StrobesCarryTheByte`, `RequestDurationLowerBound`, `SuccessfulRequestPinCounts` (both settles, both
widths), `CoreIgnoresFrontEndState`, `CoreRequestFrame` and `OnlyRequiredPinsAreNamed`. -/
theorem witness_completed_core_requests :
    (Accepts idle8 ∧ ∃ t, exec (coreInstr false 0x01) idle8 = .next t ∧ (t.res == .ok) = true) ∧
    (Accepts (polling [] [15, 18]) ∧
      ∃ t, exec (coreInstr true 0x41) (polling [] [15, 18]) = .next t ∧ (t.res == .ok) = true) ∧
    (Accepts (engine fix4 (answers 13 [] [])) ∧
      ∃ t, exec (coreInstr true 0xA5) (engine fix4 (answers 13 [] [])) = .next t ∧ (t.res == .ok) = true) ∧
    (Accepts (engine poll4 (answers 36 [] [17, 22])) ∧
      ∃ t, exec (coreInstr true 0xA5) (engine poll4 (answers 36 [] [17, 22])) = .next t ∧ (t.res == .ok) = true) ∧
    (Accepts (polling [] [15, 18, 21, 24]) ∧
      ∃ t, exec (coreInstr true 0x20) (polling [] [15, 18, 21, 24]) = .next t ∧ (t.res == .hardwareTimeout) = true) :=
  ⟨⟨acceptsOf (by decide +kernel), exists_of_nextWith (by decide +kernel)⟩,
    ⟨acceptsOf (by decide +kernel), exists_of_nextWith (by decide +kernel)⟩,
    ⟨acceptsOf (by decide +kernel), exists_of_nextWith (by decide +kernel)⟩,
    ⟨acceptsOf (by decide +kernel), exists_of_nextWith (by decide +kernel)⟩,
    acceptsOf (by decide +kernel), exists_of_nextWith (by decide +kernel)⟩

/-- The platform of spec/70_reset_and_hazards.md R213 for an 8-bit engine without read/write line. -/
theorem witness_LaunchPremises : LaunchPremises ⟨fix8.boundPins, false, 50, 40⟩ idle8 where
  pins := ⟨by decide +kernel, by decide +kernel⟩
  enableIdle := rfl
  rwTied := fun _ => rfl
  poweredOn := by decide

/-- Two engines with different histories and the same answers to come. -/
theorem witness_TransferIgnoresHistory :
    Accepts idle8 ∧ Accepts { idle8 with lines := ⟨true, true, true, 0xFF⟩, doe := true, bfs := true, di := 7 } ∧
    idle8.cfg = ({ idle8 with lines := ⟨true, true, true, 0xFF⟩, doe := true, bfs := true, di := 7 } : State).cfg ∧
    idle8.draws = ({ idle8 with lines := ⟨true, true, true, 0xFF⟩, doe := true, bfs := true, di := 7 } : State).draws ∧
    idle8.drawn = ({ idle8 with lines := ⟨true, true, true, 0xFF⟩, doe := true, bfs := true, di := 7 } : State).drawn ∧
    ∃ t, exec (coreInstr true 0xA5) idle8 = .next t ∧ (t.res == .ok) = true :=
  ⟨acceptsOf (by decide +kernel), acceptsOf (by decide +kernel), rfl, rfl, rfl, exists_of_nextWith (by decide +kernel)⟩

/-- A bound pin that answers `ok`, one that fails, and an unbound one; outside and inside a pin phase. -/
theorem witness_pin_operations :
    (legalConfig idle8.cfg = true ∧ pinProduced idle8.cfg (.dl 7) = true ∧ idle8.rstIn = none ∧
      bound idle8.cfg (.dl 7) = true ∧ (drawAt idle8 0).fails = false) ∧
    (legalConfig (at_ .pRead poll4 [0] []).cfg = true ∧ pinProduced poll4 (.dl 3) = true ∧
      (at_ .pRead poll4 [0] []).rstIn = none ∧ (drawAt (at_ .pRead poll4 [0] []) 0).fails = true ∧
      (at_ .pRead poll4 [0] []).ph.isPin = true) ∧
    (legalConfig { fix8 with boundPins := [.rs] } = true ∧ bound { fix8 with boundPins := [.rs] } .e = false) := by
  decide +kernel

theorem witness_PinOperationFrame :
    (∃ t, exec (.setpin .e) idle8 = .next t ∧ true = true) ∧ (∃ t, exec (.clrpin (.dl 0)) idle8 = .next t ∧ true = true) ∧
    (∃ t, exec (.readpin (.dl 7)) idle8 = .next t ∧ true = true) :=
  ⟨exists_of_nextWith (p := fun _ => true) (by decide +kernel), exists_of_nextWith (p := fun _ => true) (by decide +kernel),
    exists_of_nextWith (p := fun _ => true) (by decide +kernel)⟩

/-- All three outcomes: not busy, the bound reached, one more iteration. -/
theorem witness_PollTestOutcomes :
    (Busy .pTest (at_ .pTest poll8 [] []) ∧ (at_ .pTest poll8 [] []).bfs ≠ poll8.busy) ∧
    (Busy .pTest { at_ .pTest poll8 [] [] with bfs := true, pcnt := 3 } ∧ 3 + 1 = poll8.pollMax) ∧
    (Busy .pTest { at_ .pTest poll8 [] [] with bfs := true, pcnt := 2 } ∧ 2 + 1 ≠ poll8.pollMax) :=
  ⟨⟨busyOf (by decide +kernel), by decide +kernel⟩, ⟨busyOf (by decide +kernel), by decide +kernel⟩,
    busyOf (by decide +kernel), by decide +kernel⟩

theorem witness_HoldLeadsToNibbleOrSettle :
    (Busy .fHold (at_ .fHold fix4 [] []) ∧ (at_ .fHold fix4 [] []).nib = false) ∧
    Busy .fHold { at_ .fHold poll4 [] [] with nib := true } ∧ Busy .fHold (at_ .fHold fix8 [] []) :=
  ⟨⟨busyOf (by decide +kernel), rfl⟩, busyOf (by decide +kernel), busyOf (by decide +kernel)⟩

/-- The first and the last data line of both widths. -/
theorem witness_DataPhaseDrivesOneLine :
    (∀ i : Fin 8, i = 0 ∨ i = 6 ∨ i = 7 → Busy .fData { at_ .fData fix8 [] [] with di := i } ∧
      i.val < busLines fix8.busw ∧ bound fix8 (.dl i) = true ∧ (drawAt (at_ .fData fix8 [] []) 0).fails = false) ∧
    (∀ i : Fin 8, i = 0 ∨ i = 3 → Busy .fData { at_ .fData fix4 [] [] with di := i, nib := true } ∧
      i.val < busLines fix4.busw ∧ bound fix4 (.dl i) = true ∧ (drawAt (at_ .fData fix4 [] []) 0).fails = false) := by
  constructor <;> intro i hi <;> refine ⟨busyOf ?_, ?_⟩ <;> revert i hi <;> decide +kernel

theorem witness_FixedDelayPhase : Busy .sDelay (at_ .sDelay fix8 [] []) ∧
    Busy .sDelay { at_ .sDelay fix4 [] [] with reqByte := 0x01 } :=
  ⟨busyOf (by decide +kernel), busyOf (by decide +kernel)⟩

/-- Every row of `waitRow`, and the two exits of `P_HOLD`. -/
theorem witness_WaitPhasesOnlyWait :
    (∀ p ∈ [Phase.fSetup, .fPw, .pSetup, .pPw, .pHold, .pPw2, .pHold2],
      Busy (at_ p poll4 [] []).ph (at_ p poll4 [] []) ∧ (waitRow poll4 (at_ p poll4 [] []).ph).isSome = true) ∧
    (Busy (at_ .pHold poll8 [] []).ph (at_ .pHold poll8 [] []) ∧ waitRow poll8 .pHold = some (.tH, .pTest)) := by
  refine ⟨?_, busyOf (by decide +kernel), by decide +kernel⟩
  intro p hp; refine ⟨busyOf ?_, ?_⟩ <;> revert p hp <;> decide +kernel

/-- Every row of `controlRow`. -/
theorem witness_ControlPhasesDriveTheirLine :
    ∀ p ∈ [Phase.fRs, .fRw, .fEhi, .fElo, .pRs, .pRw, .pEhi, .pElo, .pEhi2, .pElo2],
      Busy (at_ p poll4 [] []).ph (at_ p poll4 [] []) ∧
      (controlRow poll4 (at_ p poll4 [] []).reqRs (at_ p poll4 [] []).ph).any (fun r => bound poll4 r.1) = true ∧
      (drawAt (at_ p poll4 [] []) 0).fails = false := by
  intro p hp; refine ⟨busyOf ?_, ?_⟩ <;> revert p hp <;> decide +kernel

theorem witness_PollReadSamplesBusyFlag :
    Busy .pRead (at_ .pRead poll4 [] [0]) ∧ (at_ .pRead poll4 [] [0]).doe = false ∧
    bound poll4 (.dl (topLine poll4.busw)) = true ∧ (drawAt (at_ .pRead poll4 [] [0]) 0).fails = false :=
  ⟨busyOf (by decide +kernel), by decide +kernel, by decide +kernel, by decide +kernel⟩

theorem witness_DonePresentsStatus : Busy .done (at_ .done fix8 [] []) := busyOf (by decide +kernel)

/-- The invariant of a concrete state, field by field. -/
theorem engineInvOf {s : State} (legal : legalConfig s.cfg = true)
    (h1 : s.ist = .ready → s.cur.line.toNat < s.cfg.lines ∧ s.cur.col.toNat ≤ s.cfg.cols) (h2 : s.ist ≠ .initializing)
    (h3 : s.di.val < busLines s.cfg.busw ∧ (s.cfg.busw = .eight → s.nib = false) ∧ s.pcnt ≤ s.cfg.pollMax ∧
      (s.ph.inTransfer = true → s.pcnt < s.cfg.pollMax) ∧ s.res.isCore = true)
    (h4 : (s.ph.needsRw = true → s.cfg.rwPresent = true) ∧ (s.ph = .sDelay → s.cfg.rwPresent = false) ∧
      (s.ph.secondStrobe = true → s.cfg.busw = .four) ∧ (s.ph.released = true → s.doe = false) ∧
      (s.ph.driven = true → s.doe = true) ∧ (s.ph = .fRw → s.di = 0) ∧
      (s.ph = .fData → s.di ≠ 0 → s.doe = true) ∧ s.tmr = 0)
    (h5 : s.coreResponses = [] ∧ s.feResponses = []) : EngineInv s where
  legal := legal
  cursor := h1
  initSettled := h2
  lineIndex := h3.1
  nibble := h3.2.1
  pollCount := h3.2.2.1
  pollLeft := h3.2.2.2.1
  result := h3.2.2.2.2
  rwPhases := h4.1
  delayPhase := h4.2.1
  secondStrobe := h4.2.2.1
  released := h4.2.2.2.1
  driven := h4.2.2.2.2.1
  firstLine := h4.2.2.2.2.2.1
  drivenData := h4.2.2.2.2.2.2.1
  timer := h4.2.2.2.2.2.2.2
  coreStatuses := by simp [h5.1]
  feStatuses := by simp [h5.2]

/-- A data write, a poll read and the release of the data lines, each about to fail; the last on an unbound pin. -/
theorem witness_FailedPinPhaseAborts :
    (Busy (at_ .fData fix8 [0] []).ph (at_ .fData fix8 [0] []) ∧ EngineInv (at_ .fData fix8 [0] []) ∧
      (pinEvent (at_ .fData fix8 [0] [])).any (fun e => e.pin == some (.dl 0)) = true ∧
      (drawAt (at_ .fData fix8 [0] []) 0).fails = true) ∧
    (Busy (at_ .pRead poll8 [0] []).ph (at_ .pRead poll8 [0] []) ∧ EngineInv (at_ .pRead poll8 [0] []) ∧
      (pinEvent (at_ .pRead poll8 [0] [])).any (fun e => e.pin == some (.dl 7)) = true ∧
      (drawAt (at_ .pRead poll8 [0] []) 0).fails = true) ∧
    (Busy (at_ .pRs { poll8 with boundPins := [] } [] []).ph (at_ .pRs { poll8 with boundPins := [] } [] []) ∧
      EngineInv (at_ .pRs { poll8 with boundPins := [] } [] []) ∧
      (pinEvent (at_ .pRs { poll8 with boundPins := [] } [] [])).any (fun e => e.pin == some .rs) = true ∧
      bound { poll8 with boundPins := [] } .rs = false) :=
  ⟨⟨busyOf (by decide +kernel),
      engineInvOf (by decide +kernel) (by decide +kernel) (by decide +kernel) (by decide +kernel) (by decide +kernel) ⟨rfl, rfl⟩,
      by decide +kernel, by decide +kernel⟩,
    ⟨busyOf (by decide +kernel),
      engineInvOf (by decide +kernel) (by decide +kernel) (by decide +kernel) (by decide +kernel) (by decide +kernel) ⟨rfl, rfl⟩,
      by decide +kernel, by decide +kernel⟩,
    busyOf (by decide +kernel),
    engineInvOf (by decide +kernel) (by decide +kernel) (by decide +kernel) (by decide +kernel) (by decide +kernel) ⟨rfl, rfl⟩,
    by decide +kernel, by decide +kernel⟩

/-! ### Front-end statements -/

theorem witness_GateAnswersNotInitialized :
    (FrontEndAccepts idle8 ∧ idle8.ist ≠ .ready ∧ gated .clear = true ∧ gated (.defglyph 8 []) = true) ∧
    (Accepts idle8 ∧ ∃ t, exec (coreInstr false 0x01) idle8 = .next t ∧ true = true) :=
  ⟨⟨frontEndAcceptsOf (by decide +kernel), by decide +kernel, rfl, rfl⟩, acceptsOf (by decide +kernel),
    exists_of_nextWith (p := fun _ => true) (by decide +kernel)⟩

/-- The first line and column outside, the first index outside, a string too long for its line. -/
theorem witness_OutOfBoundsChangesNothing :
    FrontEndAccepts (ready8 0 3) ∧ (ready8 0 3).ist = .ready ∧ (ready8 0 3).cfg.lines ≤ (2 : Byte).toNat ∧
    (ready8 0 3).cfg.cols ≤ (16 : Byte).toNat ∧ 7 < (8 : Byte).toNat ∧
    ∃ t, exec (.wrstr [0x48, 0x45, 0x4C]) (ready8 0 14) = .next t ∧ true = true :=
  ⟨frontEndAcceptsOf (by decide +kernel), rfl, by decide +kernel, by decide +kernel, by decide +kernel,
    exists_of_nextWith (p := fun _ => true) (by decide +kernel)⟩

/-- The clauses of the positioning statements `SETCURSOR`, `WRCHARAT`, `WRSTRAT`: before `INIT`, outside, and the last cell
inside. -/
theorem witness_positioning :
    (FrontEndAccepts idle8 ∧ idle8.ist ≠ .ready) ∧
    (FrontEndAccepts (ready8 0 0) ∧ (ready8 0 0).ist = .ready ∧ (1 : Byte).toNat < (ready8 0 0).cfg.lines ∧
      (15 : Byte).toNat < (ready8 0 0).cfg.cols ∧ (ready8 0 0).cfg.lines ≤ (2 : Byte).toNat ∧
      (ready8 0 0).cfg.cols ≤ (16 : Byte).toNat) :=
  ⟨⟨frontEndAcceptsOf (by decide +kernel), by decide +kernel⟩, frontEndAcceptsOf (by decide +kernel), rfl,
    by decide +kernel, by decide +kernel, by decide +kernel, by decide +kernel⟩

/-- The clauses of `WRCHAR` and `WRGLYPH`: the last column, the full line, the index bounds. -/
theorem witness_characters :
    (FrontEndAccepts (ready8 0 15) ∧ (ready8 0 15).ist = .ready ∧ (ready8 0 15).cur.col.toNat < (ready8 0 15).cfg.cols) ∧
    (FrontEndAccepts (ready8 0 16) ∧ (ready8 0 16).ist = .ready ∧ (ready8 0 16).cfg.cols ≤ (ready8 0 16).cur.col.toNat) ∧
    (7 : Byte).toNat ≤ 7 ∧ 7 < (8 : Byte).toNat :=
  ⟨⟨frontEndAcceptsOf (by decide +kernel), rfl, by decide +kernel⟩, ⟨frontEndAcceptsOf (by decide +kernel), rfl,
    by decide +kernel⟩, by decide +kernel, by decide +kernel⟩

/-- The clauses of the statements of `CLEAR`, `HOME`, the shifts, the display requests, the strings, `WRINT` and `INIT`. -/
theorem witness_unconditional_requests :
    (FrontEndAccepts idle8 ∧ idle8.ist ≠ .ready) ∧ (FrontEndAccepts (ready8 1 7) ∧ (ready8 1 7).ist = .ready) :=
  ⟨⟨frontEndAcceptsOf (by decide +kernel), by decide +kernel⟩, frontEndAcceptsOf (by decide +kernel), rfl⟩

/-- The last clause of `ClearAndHomeResetCursor`, and the longest string. -/
theorem witness_clear_settles_long :
    (ready8 1 7).cfg.rwPresent = false ∧ (ready8 1 7).ist = .ready ∧ (List.replicate 255 (0x41 : Byte)).length ≤ 255 ∧
    ∃ t, exec .clear (ready8 1 7) = .next t ∧ (t.feResponses == (ready8 1 7).feResponses ++ [.ok]) = true :=
  ⟨rfl, rfl, by decide +kernel, exists_of_nextWith (by decide +kernel)⟩

theorem witness_DisplayRequestsCommitShadow :
    FrontEndAccepts (ready8 0 0) ∧ newDcb (ready8 0 0).dcb .curon = some 0b110 ∧
    newDcb (ready8 0 0).dcb .dispoff = some 0b000 ∧ newDcb (ready8 0 0).dcb .blinkon = some 0b101 :=
  ⟨frontEndAcceptsOf (by decide +kernel), by decide +kernel, by decide +kernel, by decide +kernel⟩

theorem witness_DefglyphWritesSlotAndRestores :
    FrontEndAccepts (ready8 1 16) ∧ ([0x0E, 0x1B, 0x11, 0x11, 0x11, 0x11, 0x1F, 0x00] : List Byte).length = 8 ∧
    (ready8 1 16).ist = .ready ∧ (7 : Byte).toNat ≤ 7 ∧ 7 < (8 : Byte).toNat :=
  ⟨frontEndAcceptsOf (by decide +kernel), rfl, rfl, by decide +kernel, by decide +kernel⟩

theorem witness_FrontEndRequestFrame :
    Accepts (ready8 0 14) ∧ gated (.wrstr [0x41]) = true ∧
    ∃ t, exec (.wrstr [0x41]) (ready8 0 14) = .next t ∧ (t.cur.col == 15) = true :=
  ⟨acceptsOf (by decide +kernel), rfl, exists_of_nextWith (by decide +kernel)⟩

/-- The last column of the second line. -/
theorem witness_PositionThenWriteAdvancesOne :
    FrontEndAccepts (ready8 0 0) ∧ (ready8 0 0).ist = .ready ∧ (1 : Byte).toNat < (ready8 0 0).cfg.lines ∧
    (15 : Byte).toNat < (ready8 0 0).cfg.cols ∧
    ∃ u, exec (.setcursor 1 15) (ready8 0 0) = .next u ∧
      (u.feResponses == (ready8 0 0).feResponses ++ [.ok] &&
        nextWith (exec (.wrchar 0x41) u) (fun t => t.feResponses == u.feResponses ++ [.ok])) = true :=
  ⟨frontEndAcceptsOf (by decide +kernel), rfl, by decide +kernel, by decide +kernel,
    exists_of_nextWith (by decide +kernel)⟩

/-! ### Whole-machine statements -/

theorem witness_OnlyInitAndRstChangeIst :
    ∃ t, step { idle8 with host := [.request (.fe [0x00])] } = .next t ∧ (t.ist == .ready) = true :=
  exists_of_nextWith (by decide +kernel)

theorem witness_HistoryOnlyGrows :
    ∃ t, step { engine { fix8 with hasFe := false } (answers 11 [] []) with host := [.request (.cp 0x001)] } = .next t ∧
      (t.history.length == 15) = true :=
  exists_of_nextWith (by decide +kernel)

/-- The write of `RW` that turns the bus to the controller, from a state in which the engine drives; and a whole request. -/
theorem witness_NoDataLineContention :
    (EngineInv { at_ .pRs poll8 [] [] with doe := true } ∧ poll8.rwPresent = true ∧
      ({ at_ .pRs poll8 [] [] with doe := true } : State).ph ≠ .idle ∧
      WriteBeforeDrive { at_ .pRs poll8 [] [] with doe := true } ∧
      ∃ t, step { at_ .pRs poll8 [] [] with doe := true } = .next t ∧
        t.trace.all (fun e => e != .writeFailed .rw false && e != .writeFailed .rw true) = true) ∧
    (Accepts (polling [] [15]) ∧ WriteBeforeDrive (polling [] [15]) ∧
      ∃ t, exec (coreInstr true 0x41) (polling [] [15]) = .next t ∧
        t.trace.all (fun e => e != .writeFailed .rw false && e != .writeFailed .rw true) = true) :=
  ⟨⟨engineInvOf (by decide +kernel) (by decide +kernel) (by decide +kernel) (by decide +kernel) (by decide +kernel)
        ⟨rfl, rfl⟩,
      rfl, by decide +kernel, ⟨by decide +kernel, by decide +kernel⟩, exists_of_nextWith (by decide +kernel)⟩,
    acceptsOf (by decide +kernel), ⟨by decide +kernel, by decide +kernel⟩, exists_of_nextWith (by decide +kernel)⟩

/-- Before acceptance, inside the request, and after its end; without a front-end and with one. -/
theorem witness_CutRequestLeavesPrefix :
    decode (.cp 0x141) = some (coreInstr true 0x41) ∧
    ∀ fe ∈ [true, false], ∀ k ∈ [0, 1, 14, 100],
      Accepts { engine { poll8 with hasFe := fe } [] with host := [.cut (.cp 0x141) k] } ∧
      ({ engine { poll8 with hasFe := fe } [] with host := [.cut (.cp 0x141) k] } : State).host =
        .cut (.cp 0x141) k :: [] := by
  refine ⟨by decide +kernel, ?_⟩
  intro fe hf k hk; refine ⟨acceptsOf ?_, ?_⟩ <;> revert fe hf k hk <;> decide +kernel

theorem witness_StepKeepsInvariant :
    EngineInv { at_ .pTest poll8 [] [] with bfs := true, pcnt := 3 } ∧
    ∃ t, step { at_ .pTest poll8 [] [] with bfs := true, pcnt := 3 } = .next t ∧ (t.res == .hardwareTimeout) = true :=
  ⟨engineInvOf (by decide +kernel) (by decide +kernel) (by decide +kernel) (by decide +kernel) (by decide +kernel) ⟨rfl, rfl⟩,
    exists_of_nextWith (by decide +kernel)⟩

theorem witness_FreshEngineMeetsInvariant :
    FreshEngine { State.resetOf poll4 with host := [.rst], draws := answers 4 [] [], drawn := 3 } :=
  ⟨poll4, [.rst], answers 4 [] [], 3, by decide +kernel, rfl⟩

end Sys2Proof.Tests
end

section
/-! PROOFS. A core request stays within `REQPINS` (spec/00_scope.md R6, spec/40_bus_framing.md R97): which pins that list
holds, inductions over the phases of a request, what a pin transaction names and changes, and the invariant under which
every phase names a pin of the list. -/

namespace Sys2Proof.Machine

/-! ## The pins of `REQPINS` -/

/-- `REQPINS` holds the pins whose words are produced, `RW` only where it is connected. -/
theorem mem_reqPins_iff (c : Config) (id : PinId) :
    id ∈ reqPins c ↔ pinProduced c id = true ∧ (id = .rw → c.rwPresent = true) := by
  cases id with
  | rs | e => simp [reqPins, pinProduced]
  | rw => cases h : c.busw <;> simp [reqPins, pinProduced, h]
  | dl i =>
    cases hb : c.busw <;> simp only [reqPins, pinProduced, busLines, hb]
    all_goals cases c.rwPresent <;> revert i <;> decide

theorem rs_mem_reqPins (c : Config) : .rs ∈ reqPins c := by simp [mem_reqPins_iff, pinProduced]

theorem e_mem_reqPins (c : Config) : .e ∈ reqPins c := by simp [mem_reqPins_iff, pinProduced]

theorem rw_mem_reqPins {c : Config} (h : c.rwPresent = true) : .rw ∈ reqPins c := by
  simp [mem_reqPins_iff, pinProduced, h]

theorem dl_mem_reqPins {c : Config} {i : Fin 8} (h : i.val < busLines c.busw) : .dl i ∈ reqPins c := by
  simp [mem_reqPins_iff, pinProduced, h]

theorem topLine_lt_busLines (w : BusWidth) : (topLine w).val < busLines w := by cases w <;> decide

/-- After a data line that is not the top one there is another. -/
theorem succ_lt_busLines {w : BusWidth} {i : Fin 8} (h : i.val < busLines w) (hne : i ≠ topLine w) :
    (i + 1).val < busLines w := by
  cases w <;> revert i <;> decide

/-! ## Inductions over the phases of a request -/

/-- What every phase of a busy engine keeps, and the count to `rst` with it, holds when the phases end. -/
theorem runPhases_induction {P : State → Prop}
    (hphase : ∀ u, u.ph ≠ .idle → P u → P (countToRst (phaseStep u))) (fuel : Nat) (s : State) (h : P s) :
    P (runPhases fuel s) := by
  induction fuel generalizing s with
  | zero => exact h
  | succ fuel ih =>
    unfold runPhases
    split
    · exact h
    · next hgo => exact ih _ (hphase s (fun hp => hgo (.inl hp)) h)

/-- A core request cut before its acceptance leaves the state; any other runs its phases from acceptance. -/
theorem coreRequest_cases (rs : Bit) (b : Byte) (s : State) :
    (cutOff s = true ∧ coreRequest rs b s = s) ∨
    (cutOff s = false ∧ coreRequest rs b s = runPhases (phaseBudget s.cfg) (accept rs b s)) := by
  unfold coreRequest
  cases h : cutOff s <;> simp

/-- A core instruction that gives a next state ran its core request on an idle engine of a legal configuration. -/
theorem exec_coreInstr_next {s t : State} {rs : Bit} {b : Byte} (h : exec (Spec.coreInstr rs b) s = .next t) :
    legalConfig s.cfg = true ∧ s.ph = .idle ∧ coreRequest rs b s = t := by
  have hrun : onIdleEngine s (.next (coreRequest rs b s)) = .next t := by cases rs <;> exact h
  obtain ⟨hlegal, hidle, hnext⟩ := onIdleEngine_next hrun
  exact ⟨hlegal, hidle, Host.Outcome.next.inj hnext⟩

/-! ## Naming and changing only some pins -/

/-- From `s` to `t` the lines outside `pins` keep their level and the events added name pins of the list only. -/
def NamesOnly (pins : List PinId) (s t : State) : Prop :=
  (∀ id, id ∉ pins → lineLevel t.lines id = lineLevel s.lines id) ∧
    ∃ new, t.trace = s.trace ++ new ∧ ∀ e ∈ new, ∀ id, e.pin = some id → id ∈ pins

variable {pins : List PinId} {s t u : State}

theorem NamesOnly.refl (s : State) : NamesOnly pins s s := ⟨fun _ _ => rfl, [], by simp, by simp⟩

theorem NamesOnly.trans (hst : NamesOnly pins s t) (htu : NamesOnly pins t u) : NamesOnly pins s u := by
  obtain ⟨hlines, new, htrace, hnew⟩ := hst
  obtain ⟨hlines', new', htrace', hnew'⟩ := htu
  refine ⟨fun id hid => (hlines' id hid).trans (hlines id hid), new ++ new', by simp [htrace, htrace'], ?_⟩
  intro e he
  exact (List.mem_append.mp he).elim (hnew e) (hnew' e)

/-- Recording one event that names a pin of the list, after a change of lines of the list only. -/
theorem namesOnly_logEvent {e : Event} (hpin : ∀ id, e.pin = some id → id ∈ pins)
    (hlines : ∀ id, id ∉ pins → lineLevel u.lines id = lineLevel s.lines id) (htrace : u.trace = s.trace) :
    NamesOnly pins s (logEvent e u) :=
  ⟨hlines, [e], by simp [htrace], by simpa using hpin⟩

theorem namesOnly_waitFor (w : WaitParam) (s : State) : NamesOnly pins s (waitFor w s) := by
  rw [waitFor_eq]
  exact namesOnly_logEvent (by simp [Event.pin]) (fun _ _ => rfl) rfl

/-- Setting a line of the list leaves the lines outside it. -/
theorem lineLevel_setLine_of_not_mem {id other : PinId} (hid : id ∈ pins) (hother : other ∉ pins) (l : Lines)
    (v : Bit) : lineLevel (setLine l id v) other = lineLevel l other := by
  have hne : id ≠ other := fun h => hother (h ▸ hid)
  simp [lineLevel_setLine, hne]

/-- One write, answered `ok` or `fail`, names and changes its own pin only. -/
theorem namesOnly_write {e : Event} {id : PinId} (hid : id ∈ pins) (he : e.pin = some id) (v : Bit) (s : State) :
    NamesOnly pins s (logEvent e { popDraw s with lines := setLine s.lines id v }) := by
  refine namesOnly_logEvent (by simpa [he] using hid) ?_ ?_
  · exact fun _ hother => lineLevel_setLine_of_not_mem hid hother _ _
  · exact popDraw_trace s

/-- One read, answered `ok` or `fail`, names its own pin only and changes no line. -/
theorem namesOnly_read {e : Event} {id : PinId} (hid : id ∈ pins) (he : e.pin = some id) (s : State) :
    NamesOnly pins s (logEvent e (popDraw s)) :=
  namesOnly_logEvent (by simpa [he] using hid) (by simp) (popDraw_trace s)

theorem namesOnly_drive {id : PinId} {v : Bit} {next : State → State} (hid : id ∈ pins)
    (hnext : ∀ u, NamesOnly pins u (next u)) (s : State) : NamesOnly pins s (drive id v next s) := by
  rcases drive_cases id v next s with ⟨-, h⟩ | ⟨-, h⟩ <;> rw [h]
  · exact (namesOnly_write hid rfl _ s).trans (hnext _)
  · exact namesOnly_write (e := .writeFailed id v) hid rfl _ s

theorem namesOnly_sample {id : PinId} {next : Bit → State → State} (hid : id ∈ pins)
    (hnext : ∀ b u, NamesOnly pins u (next b u)) (s : State) : NamesOnly pins s (sample id next s) := by
  rcases sample_cases id next s with ⟨-, h⟩ | ⟨-, h⟩ <;> rw [h]
  · exact (namesOnly_read hid rfl s).trans (hnext _ _)
  · exact namesOnly_read (e := .readFailed id) hid rfl s

/-! ## Phases that name a pin of `REQPINS` -/

/-- An engine of configuration `c` whose phase names a pin of `REQPINS`, if it names one: the two clauses of `EngineInv`
that this rests on. Acceptance establishes them from any state, so O24 need not assume `EngineInv`. -/
structure PhaseWithinPins (c : Config) (s : State) : Prop where
  cfg : s.cfg = c
  /-- `DI` is a line of the bus (spec/10_state.md R23) -/
  lineIndex : s.di.val < busLines c.busw
  /-- read/write and poll phases only with a read/write line (spec/40_bus_framing.md R97) -/
  rwPhases : s.ph.needsRw = true → c.rwPresent = true

variable {c : Config}

/-- A writing phase keeps it if going on does: an abort goes to `DONE`, which names no pin. -/
theorem phaseWithinPins_drive {id : PinId} {v : Bit} {next : State → State} (h : PhaseWithinPins c s)
    (hnext : ∀ u, PhaseWithinPins c u → PhaseWithinPins c (next u)) :
    PhaseWithinPins c (drive id v next s) := by
  obtain ⟨hcfg, hdi, hrw⟩ := h
  rcases drive_cases id v next s with ⟨-, e⟩ | ⟨-, e⟩ <;> rw [e]
  · exact hnext _ ⟨by simpa using hcfg, by simpa using hdi, by simpa using hrw⟩
  · exact ⟨by simpa using hcfg, by simpa using hdi, nofun⟩

/-- A sampling phase likewise. -/
theorem phaseWithinPins_sample {id : PinId} {next : Bit → State → State} (h : PhaseWithinPins c s)
    (hnext : ∀ b u, PhaseWithinPins c u → PhaseWithinPins c (next b u)) :
    PhaseWithinPins c (sample id next s) := by
  obtain ⟨hcfg, hdi, hrw⟩ := h
  rcases sample_cases id next s with ⟨-, e⟩ | ⟨-, e⟩ <;> rw [e]
  · exact hnext _ _ ⟨by simpa using hcfg, by simpa using hdi, by simpa using hrw⟩
  · exact ⟨by simpa using hcfg, by simpa using hdi, nofun⟩

theorem PhaseWithinPins.countToRst (h : PhaseWithinPins c s) : PhaseWithinPins c (countToRst s) :=
  ⟨h.cfg, h.lineIndex, h.rwPhases⟩

/-- Acceptance sets `DI` to 0 and goes to `F_RS`. -/
theorem phaseWithinPins_accept (rs : Bit) (b : Byte) (s : State) : PhaseWithinPins s.cfg (accept rs b s) :=
  ⟨rfl, by cases h : s.cfg.busw <;> simp [busLines], nofun⟩

/-- Every phase leads to a phase that names a pin of `REQPINS`, if it names one. -/
theorem phaseStep_phaseWithinPins (h : PhaseWithinPins c s) : PhaseWithinPins c (phaseStep s) := by
  have hzero : (0 : Fin 8).val < busLines c.busw := Nat.zero_lt_of_lt h.lineIndex
  have ⟨hcfg, hdi, hrw⟩ := h
  unfold phaseStep
  cases hp : s.ph with (rw [hp] at hrw; dsimp only)
  | idle => exact h
  | fRs =>
    refine phaseWithinPins_drive h fun u hu => ⟨hu.cfg, hzero, ?_⟩
    cases hconn : c.rwPresent <;> simp [goto, hu.cfg, hconn, Phase.needsRw]
  | fRw => exact phaseWithinPins_drive h fun _ hu => ⟨hu.cfg, hu.lineIndex, nofun⟩
  | fData =>
    refine phaseWithinPins_drive (by split <;> exact ⟨hcfg, hdi, h.rwPhases⟩) fun u hu => ?_
    split
    · exact ⟨hu.cfg, hu.lineIndex, nofun⟩
    · next hne => exact ⟨hu.cfg, succ_lt_busLines hu.lineIndex (hu.cfg ▸ hne), hu.rwPhases⟩
  | fEhi | fElo | pRw | pEhi | pElo | pEhi2 | pElo2 =>
    exact phaseWithinPins_drive h fun _ hu => ⟨hu.cfg, hu.lineIndex, hrw⟩
  | pRs => exact phaseWithinPins_drive ⟨hcfg, hdi, h.rwPhases⟩ fun _ hu => ⟨hu.cfg, hu.lineIndex, hrw⟩
  | pRead => exact phaseWithinPins_sample h fun _ _ hu => ⟨hu.cfg, hu.lineIndex, hrw⟩
  | fSetup | fPw | pSetup | pPw | pPw2 | pHold2 => exact ⟨hcfg, hdi, hrw⟩
  | fHold =>
    dsimp only [phaseFHold]
    split
    · exact ⟨hcfg, hzero, nofun⟩
    · refine ⟨hcfg, hdi, ?_⟩
      cases hconn : c.rwPresent <;> simp [goto, waitFor_eq, hcfg, hconn, Phase.needsRw]
  | pHold => exact ⟨hcfg, hdi, fun _ => hrw rfl⟩
  | pTest =>
    dsimp only [phasePTest]
    split
    · exact ⟨hcfg, hdi, nofun⟩
    · split
      · exact ⟨hcfg, hdi, nofun⟩
      · exact ⟨hcfg, hdi, hrw⟩
  | sDelay | done => exact ⟨hcfg, hdi, nofun⟩

/-- One phase names and changes only pins of `REQPINS`. -/
theorem phaseStep_namesOnly (h : PhaseWithinPins c s) : NamesOnly (reqPins c) s (phaseStep s) := by
  obtain ⟨hcfg, hdi, hrw⟩ := h
  unfold phaseStep
  cases hp : s.ph with (rw [hp] at hrw; dsimp only)
  | fRs => refine namesOnly_drive (rs_mem_reqPins c) ?_ s; exact .refl
  | pRs => refine namesOnly_drive (rs_mem_reqPins c) ?_ { s with doe := false }; exact .refl
  | fRw | pRw => refine namesOnly_drive (rw_mem_reqPins (hrw rfl)) ?_ s; exact .refl
  | fEhi | fElo | pEhi | pElo | pEhi2 | pElo2 => refine namesOnly_drive (e_mem_reqPins c) ?_ s; exact .refl
  | fData =>
    have hnext (u : State) : NamesOnly (reqPins c) u
        (if u.di = topLine u.cfg.busw then goto .fSetup u else { u with di := u.di + 1 }) := by
      split <;> exact .refl u
    dsimp only [phaseFData]
    split
    · exact namesOnly_drive (dl_mem_reqPins hdi) hnext { s with doe := true }
    · exact namesOnly_drive (dl_mem_reqPins hdi) hnext s
  | pRead =>
    have htop := dl_mem_reqPins (topLine_lt_busLines c.busw)
    refine namesOnly_sample (hcfg ▸ htop) ?_ s
    exact fun _ => .refl
  | fSetup | fPw | sDelay | pSetup | pPw | pHold | pPw2 | pHold2 => exact namesOnly_waitFor _ s
  | fHold => dsimp only [phaseFHold]; split <;> exact namesOnly_waitFor .tH s
  | pTest =>
    dsimp only [phasePTest]
    split
    · exact .refl s
    · split <;> exact .refl s
  | idle | done => exact .refl s

/-- A core request names and changes only pins of `REQPINS`, cut by `rst` or not. -/
theorem coreRequest_namesOnly (rs : Bit) (b : Byte) (s : State) :
    NamesOnly (reqPins s.cfg) s (coreRequest rs b s) := by
  rcases coreRequest_cases rs b s with ⟨-, h⟩ | ⟨-, h⟩ <;> rw [h]
  · exact .refl s
  · have hrun := runPhases_induction (P := fun u => PhaseWithinPins s.cfg u ∧ NamesOnly (reqPins s.cfg) s u)
      (fun u _ ⟨hpins, hnames⟩ => ⟨(phaseStep_phaseWithinPins hpins).countToRst,
        hnames.trans (phaseStep_namesOnly hpins)⟩)
      (phaseBudget s.cfg) (accept rs b s) ⟨phaseWithinPins_accept rs b s, .refl s⟩
    exact hrun.2

/-- Settles O24: every phase names only pins of `REQPINS` under `PhaseWithinPins`, which acceptance establishes. -/
theorem onlyRequiredPinsAreNamed : Obligations.OnlyRequiredPinsAreNamed := by
  intro s t rs b h
  obtain ⟨-, -, rfl⟩ := exec_coreInstr_next h
  exact coreRequest_namesOnly rs b s

end Sys2Proof.Machine
end

section
/-! PROOFS. Reset: the registers of an engine in its reset state (spec/10_state.md R38), and that it
meets the invariant. -/

namespace Sys2Proof.Machine

/-- Settles O1: `State.resetOf` writes the stated value into each of these registers. -/
theorem resetLeavesStatedValues : Obligations.ResetLeavesStatedValues :=
  fun _ => ⟨rfl, rfl, rfl, rfl, rfl, rfl, rfl, rfl, rfl⟩

/-- A reset engine of a legal configuration meets the invariant, whatever the host will present and the pins answer. -/
theorem engineInv_resetOf {c : Config} (h : legalConfig c = true) (host : List HostEvent) (draws : List PinDraw)
    (drawn : Nat) : EngineInv { State.resetOf c with host := host, draws := draws, drawn := drawn } where
  legal := h
  cursor := nofun
  initSettled := nofun
  lineIndex := by cases hw : c.busw <;> simp [State.resetOf, busLines, hw]
  nibble := fun _ => rfl
  pollCount := Nat.zero_le _
  pollLeft := nofun
  result := rfl
  rwPhases := nofun
  delayPhase := nofun
  secondStrobe := nofun
  released := nofun
  driven := nofun
  firstLine := nofun
  drivenData := nofun
  timer := rfl
  coreStatuses := nofun
  feStatuses := nofun

/-- Settles O60: `Config.atReset` is legal, so `State.reset` is such a reset engine too. -/
theorem freshEngineMeetsInvariant : Obligations.FreshEngineMeetsInvariant := by
  refine ⟨engineInv_resetOf (c := Config.atReset) (by decide) [] [] 0, ?_⟩
  rintro _ ⟨c, host, draws, drawn, hlegal, rfl⟩
  exact engineInv_resetOf hlegal host draws drawn

end Sys2Proof.Machine
end

section
/-! PROOFS. The frame of the core: what no phase of a core request writes, and what it only appends to. -/

namespace Sys2Proof.Machine

/-- What the core never writes: the configuration, the front-end's registers and statuses, the host's events, and
whether an `rst` is to come inside the request. -/
structure OutsideCore where
  cfg : Config
  ist : InitState
  cur : Cursor
  dcb : BitVec 3
  feResponses : List Status
  host : List HostEvent
  rstToCome : Bool

def State.outsideCore (s : State) : OutsideCore where
  cfg := s.cfg
  ist := s.ist
  cur := s.cur
  dcb := s.dcb
  feResponses := s.feResponses
  host := s.host
  rstToCome := s.rstIn.isSome

theorem outsideCore_eq_iff (s t : State) : t.outsideCore = s.outsideCore ↔
    t.cfg = s.cfg ∧ t.ist = s.ist ∧ t.cur = s.cur ∧ t.dcb = s.dcb ∧ t.feResponses = s.feResponses ∧
      t.host = s.host ∧ t.rstIn.isSome = s.rstIn.isSome := by
  simp [State.outsideCore]

/-- From `s` to `t` the core has run: it left what lies outside it, and appended to the history and its statuses. -/
def CoreFrame (s t : State) : Prop :=
  t.outsideCore = s.outsideCore ∧ s.history <+: t.history ∧ s.coreResponses <+: t.coreResponses

variable {s t u : State}

theorem CoreFrame.refl (s : State) : CoreFrame s s := ⟨rfl, List.prefix_rfl, List.prefix_rfl⟩

theorem CoreFrame.trans (hst : CoreFrame s t) (htu : CoreFrame t u) : CoreFrame s u := by
  obtain ⟨houtside, hhist, hresp⟩ := hst
  obtain ⟨houtside', hhist', hresp'⟩ := htu
  exact ⟨houtside'.trans houtside, hhist.trans hhist', hresp.trans hresp'⟩

theorem CoreFrame.cfg (h : CoreFrame s t) : t.cfg = s.cfg := congrArg OutsideCore.cfg h.left

theorem CoreFrame.host (h : CoreFrame s t) : t.host = s.host := congrArg OutsideCore.host h.left

theorem CoreFrame.rstIn_none (h : CoreFrame s t) (hs : s.rstIn = none) : t.rstIn = none := by
  have hpending : t.rstIn.isSome = s.rstIn.isSome := congrArg OutsideCore.rstToCome h.left
  simpa [hs] using hpending

/-! ## Operations and phases -/

theorem coreFrame_logEvent (e : Event) (s : State) : CoreFrame s (logEvent e s) :=
  ⟨rfl, by simp, List.prefix_rfl⟩

/-- One transaction, whatever it leaves on the lines. -/
theorem coreFrame_transaction (e : Event) (l : Lines) (s : State) :
    CoreFrame s (logEvent e { popDraw s with lines := l }) := by
  have hpop : CoreFrame s { popDraw s with lines := l } :=
    ⟨by simp [State.outsideCore], by simp, by simp⟩
  exact hpop.trans (coreFrame_logEvent e _)

theorem coreFrame_pinWrite (id : PinId) (v : Bit) (s : State) : CoreFrame s (pinWrite id v s).2 := by
  rcases pinWrite_cases id v s with ⟨-, e⟩ | ⟨-, e⟩ <;> rw [e] <;> exact coreFrame_transaction _ _ s

theorem coreFrame_pinRead (id : PinId) (s : State) : CoreFrame s (pinRead id s).2 := by
  rcases pinRead_cases id s with ⟨-, e⟩ | ⟨-, e⟩ <;> rw [e] <;>
    exact coreFrame_transaction _ (popDraw s).lines s

theorem coreFrame_drive {id : PinId} {v : Bit} {next : State → State} (hnext : ∀ u, CoreFrame u (next u))
    (s : State) : CoreFrame s (drive id v next s) := by
  rcases drive_cases id v next s with ⟨-, e⟩ | ⟨-, e⟩ <;> rw [e]
  · exact (coreFrame_transaction _ _ s).trans (hnext _)
  · exact coreFrame_transaction (.writeFailed id v) _ s

theorem coreFrame_sample {id : PinId} {next : Bit → State → State} (hnext : ∀ b u, CoreFrame u (next b u))
    (s : State) : CoreFrame s (sample id next s) := by
  rcases sample_cases id next s with ⟨-, e⟩ | ⟨-, e⟩ <;> rw [e]
  · exact (coreFrame_transaction _ (popDraw s).lines s).trans (hnext _ _)
  · exact coreFrame_transaction (.readFailed id) (popDraw s).lines s

theorem coreFrame_waitFor (w : WaitParam) (s : State) : CoreFrame s (waitFor w s) := by
  rw [waitFor_eq]
  exact coreFrame_logEvent (.waited w) { s with tmr := 0 }

theorem phaseStep_coreFrame (s : State) : CoreFrame s (phaseStep s) := by
  unfold phaseStep
  cases hp : s.ph with dsimp only
  | fRs | fRw | fEhi | fElo | pRw | pEhi | pElo | pEhi2 | pElo2 =>
    refine coreFrame_drive ?_ s
    exact .refl
  | pRs =>
    refine coreFrame_drive ?_ { s with doe := false }
    exact .refl
  | fData =>
    have hnext (u : State) :
        CoreFrame u (if u.di = topLine u.cfg.busw then goto .fSetup u else { u with di := u.di + 1 }) := by
      split <;> exact .refl u
    dsimp only [phaseFData]
    split
    · exact coreFrame_drive hnext { s with doe := true }
    · exact coreFrame_drive hnext s
  | pRead =>
    refine coreFrame_sample ?_ s
    exact fun _ => .refl
  | fSetup | pSetup => exact coreFrame_waitFor .tAs s
  | fPw | pPw | pPw2 => exact coreFrame_waitFor .tPw s
  | pHold | pHold2 => exact coreFrame_waitFor .tH s
  | sDelay => exact coreFrame_waitFor (settleWait s.cfg s.reqRs s.reqByte) s
  | fHold => dsimp only [phaseFHold]; split <;> exact coreFrame_waitFor .tH s
  | pTest =>
    dsimp only [phasePTest]
    split
    · exact .refl s
    · split <;> exact .refl s
  | idle => exact .refl s
  | done => exact ⟨rfl, List.prefix_rfl, by simp⟩

theorem coreFrame_countToRst (s : State) : CoreFrame s (countToRst s) :=
  ⟨by simp [State.outsideCore], List.prefix_rfl, List.prefix_rfl⟩

/-- The frame of a core request, cut by `rst` or not. -/
theorem coreRequest_coreFrame (rs : Bit) (b : Byte) (s : State) : CoreFrame s (coreRequest rs b s) := by
  rcases coreRequest_cases rs b s with ⟨-, e⟩ | ⟨-, e⟩ <;> rw [e]
  · exact .refl s
  · refine runPhases_induction (P := CoreFrame s) ?_ _ (accept rs b s) (.refl s)
    exact fun u _ hu => (hu.trans (phaseStep_coreFrame u)).trans (coreFrame_countToRst _)

/-- Settles O23: no phase of a core request writes these (`CoreFrame`). -/
theorem coreRequestFrame : Obligations.CoreRequestFrame := by
  intro s t rs b h
  obtain ⟨-, -, rfl⟩ := exec_coreInstr_next h
  obtain ⟨hcfg, hist, hcur, hdcb, hfe, hhost, -⟩ :=
    (outsideCore_eq_iff _ _).mp (coreRequest_coreFrame rs b s).left
  exact ⟨hcfg, hist, hcur, hdcb, hfe, hhost⟩

end Sys2Proof.Machine
end

section
/-! PROOFS. Every accepted core request ends (spec/41_transfer_sequencer.md R130): the phases it still takes at most
decrease with each phase, so `phaseBudget` is enough, and its phases run one by one give the same state. -/

namespace Sys2Proof.Machine

open Sys2Proof.Spec

/-! ## The phases still to come -/

/-- Phases of the second framing of a 4-bit transfer that is still in its first. -/
def secondFraming (s : State) : Nat := if s.cfg.busw = .four ∧ s.nib = false then 9 else 0

/-- Phases still to come at most, `DONE` included, if the present poll iteration (before the poll, the first one) is the
last. An iteration has at most ten phases, on a 4-bit bus (spec/41_transfer_sequencer.md R124). -/
def phasesIfLastIteration (s : State) : Nat :=
  match s.ph with
  | .idle => 0
  | .done => 1
  | .sDelay | .pTest => 2
  | .pHold2 => 3
  | .pElo2 => 4
  | .pPw2 => 5
  | .pEhi2 => 6
  | .pHold => 7
  | .pElo => 8
  | .pRead => 9
  | .pPw => 10
  | .pEhi => 11
  | .pSetup => 12
  | .pRw => 13
  | .pRs => 14
  | .fHold => 15 + secondFraming s
  | .fElo => 16 + secondFraming s
  | .fPw => 17 + secondFraming s
  | .fEhi => 18 + secondFraming s
  | .fSetup => 19 + secondFraming s
  | .fData => 19 + (busLines s.cfg.busw - s.di.val) + secondFraming s
  | .fRw => 20 + busLines s.cfg.busw + secondFraming s
  | .fRs => 21 + busLines s.cfg.busw + secondFraming s

/-- Phases still to come at most in a transfer in progress. -/
def phasesLeft (s : State) : Nat := 10 * (s.cfg.pollMax - s.pcnt - 1) + phasesIfLastIteration s

/-- A transfer in progress on an engine of configuration `c`: the bound of the poll is not reached (R125). -/
structure TransferInProgress (c : Config) (s : State) : Prop where
  withinPins : PhaseWithinPins c s
  inTransfer : s.ph.inTransfer = true
  pollLeft : s.pcnt < s.cfg.pollMax

/-- What a phase of the transfer `s` leads to: the end with a core status, or the transfer with fewer phases to come. -/
def Advances (s t : State) : Prop :=
  (t.ph = .done ∧ t.res.isCore = true) ∨
  (t.ph.inTransfer = true ∧ t.pcnt < t.cfg.pollMax ∧ phasesLeft t < phasesLeft s)

variable {s u : State} {c : Config}

/-- A phase that counts no iteration advances if it leaves fewer phases to come. -/
theorem advances_of_lt {t : State} (h : TransferInProgress c s) (hcfg : t.cfg = s.cfg) (hpcnt : t.pcnt = s.pcnt)
    (hph : t.ph.inTransfer = true) (hlt : phasesIfLastIteration t < phasesIfLastIteration s) : Advances s t := by
  refine .inr ⟨hph, by rw [hcfg, hpcnt]; exact h.pollLeft, ?_⟩
  unfold phasesLeft
  rw [hcfg, hpcnt]
  omega

/-- A writing phase advances if going on does: an abort ends the transfer. -/
theorem advances_drive {id : PinId} {v : Bit} {next : State → State}
    (hnext : ∀ w, w.cfg = u.cfg → w.pcnt = u.pcnt → w.di = u.di → w.nib = u.nib → w.ph = u.ph →
      Advances s (next w)) : Advances s (drive id v next u) := by
  rcases drive_cases id v next u with ⟨-, e⟩ | ⟨-, e⟩ <;> rw [e]
  · apply hnext <;> simp
  · exact .inl ⟨rfl, rfl⟩

theorem advances_sample {id : PinId} {next : Bit → State → State}
    (hnext : ∀ b w, w.cfg = s.cfg → w.pcnt = s.pcnt → Advances s (next b w)) :
    Advances s (sample id next s) := by
  rcases sample_cases id next s with ⟨-, e⟩ | ⟨-, e⟩ <;> rw [e]
  · apply hnext <;> simp
  · exact .inl ⟨rfl, rfl⟩

/-- A data line that is not the top one leaves one line fewer. -/
theorem busLines_sub_succ_lt {w : BusWidth} {i : Fin 8} (h : i.val < busLines w) (hne : i ≠ topLine w) :
    busLines w - (i + 1).val < busLines w - i.val := by
  cases w <;> revert i <;> decide

/-- Every phase of a transfer in progress ends it or leaves fewer phases to come. -/
theorem phaseStep_advances (h : TransferInProgress c s) : Advances s (phaseStep s) := by
  have ⟨⟨hc, hdi, _⟩, htransfer, hpoll⟩ := h
  subst hc
  unfold phaseStep
  cases hp : s.ph with dsimp only
  | idle | done => simp [hp, Phase.inTransfer] at htransfer
  | fRs =>
    refine advances_drive fun w hcfg hpcnt _ hnib _ => advances_of_lt h hcfg hpcnt ?_ ?_
    · cases w.cfg.rwPresent <;> rfl
    · cases w.cfg.rwPresent <;> simp [hp, hcfg, hnib, phasesIfLastIteration, secondFraming]
  | fRw =>
    refine advances_drive fun w hcfg hpcnt hdi' hnib _ => advances_of_lt h hcfg hpcnt rfl ?_
    simp only [goto_ph, goto_cfg, goto_di, goto_nib, phasesIfLastIteration, secondFraming, hp, hcfg, hdi', hnib]
    omega
  | fData =>
    have hnext {v : State} (hv : v.cfg = s.cfg ∧ v.pcnt = s.pcnt ∧ v.di = s.di ∧ v.nib = s.nib ∧ v.ph = s.ph) :
        Advances s (if v.di = topLine v.cfg.busw then goto .fSetup v else { v with di := v.di + 1 }) := by
      obtain ⟨hcfg, hpcnt, hdi', hnib, hph⟩ := hv
      split
      · refine advances_of_lt h hcfg hpcnt rfl ?_
        simp only [goto_ph, goto_cfg, goto_nib, phasesIfLastIteration, secondFraming, hp, hcfg, hnib]
        omega
      · next hne =>
        refine advances_of_lt h hcfg hpcnt (hph ▸ htransfer) ?_
        have hfewer := busLines_sub_succ_lt hdi (hdi' ▸ hcfg ▸ hne)
        simp only [phasesIfLastIteration, secondFraming, hph, hp, hcfg, hdi', hnib]
        omega
    dsimp only [phaseFData]
    split <;> exact advances_drive fun w hcfg hpcnt hdi' hnib hph => hnext ⟨hcfg, hpcnt, hdi', hnib, hph⟩
  | fEhi | fElo =>
    refine advances_drive fun w hcfg hpcnt _ hnib _ => advances_of_lt h hcfg hpcnt rfl ?_
    simp [phasesIfLastIteration, secondFraming, hp, hcfg, hnib]
  | pRs | pRw | pEhi | pElo | pEhi2 | pElo2 =>
    refine advances_drive fun w hcfg hpcnt _ _ _ => advances_of_lt h hcfg hpcnt rfl ?_
    simp [phasesIfLastIteration, hp]
  | pRead =>
    refine advances_sample fun b w hcfg hpcnt => advances_of_lt h hcfg hpcnt rfl ?_
    simp [phasesIfLastIteration, hp]
  | fSetup | fPw | pSetup | pPw | pPw2 | pHold2 =>
    refine advances_of_lt h rfl rfl rfl ?_
    simp [phaseFSetup, phaseFPw, phasePSetup, phasePPw, phasePPw2, phasePHold2, waitFor_eq, phasesIfLastIteration,
      secondFraming, hp]
  | pHold =>
    refine advances_of_lt h rfl rfl ?_ ?_ <;> cases hw : s.cfg.busw <;>
      simp [phasePHold, phasesIfLastIteration, Phase.inTransfer, hp, hw]
  | fHold =>
    dsimp only [phaseFHold]
    split
    · next hfirst =>
      refine advances_of_lt h rfl rfl rfl ?_
      obtain ⟨hw, hnib⟩ : s.cfg.busw = .four ∧ s.nib = false := hfirst
      simp [phasesIfLastIteration, secondFraming, busLines, waitFor_eq, hp, hw, hnib]
    · refine advances_of_lt h rfl rfl ?_ ?_ <;> cases hconn : s.cfg.rwPresent <;>
        simp [waitFor_eq, phasesIfLastIteration, Phase.inTransfer, hp, hconn]
      all_goals omega
  | sDelay => exact .inl ⟨rfl, rfl⟩
  | pTest =>
    dsimp only [phasePTest]
    split
    · exact .inl ⟨rfl, rfl⟩
    · split
      · exact .inl ⟨rfl, rfl⟩
      · next hmore =>
        have hleft : s.pcnt + 1 < s.cfg.pollMax := by omega
        refine .inr ⟨rfl, hleft, ?_⟩
        simp [phasesLeft, phasesIfLastIteration, hp]
        omega

theorem TransferInProgress.ph_ne_idle (h : TransferInProgress c s) : s.ph ≠ .idle := by
  intro hp
  simpa [hp, Phase.inTransfer] using h.inTransfer

/-- A transfer in progress has its last phase and `DONE` still to come. -/
theorem TransferInProgress.two_le_phasesLeft (h : TransferInProgress c s) : 2 ≤ phasesLeft s := by
  have htransfer := h.inTransfer
  unfold phasesLeft phasesIfLastIteration
  cases hp : s.ph with
  | idle | done => simp [hp, Phase.inTransfer] at htransfer
  | _ => dsimp only; omega

/-! ## From acceptance to the response -/

theorem one_le_pollMax_of_legalConfig (h : legalConfig c = true) : 1 ≤ c.pollMax := by
  simp only [legalConfig, parametersInRange, Bool.and_eq_true, decide_eq_true_eq] at h
  tauto

/-- A request accepted on an engine of a legal configuration is a transfer in progress. -/
theorem transferInProgress_accept (rs : Bit) (b : Byte) (hlegal : legalConfig s.cfg = true) :
    TransferInProgress s.cfg (accept rs b s) :=
  ⟨phaseWithinPins_accept rs b s, rfl, one_le_pollMax_of_legalConfig hlegal⟩

theorem phasesLeft_accept_le (rs : Bit) (b : Byte) (hlegal : legalConfig s.cfg = true) :
    phasesLeft (accept rs b s) ≤ phaseBudget s.cfg := by
  have hpoll := one_le_pollMax_of_legalConfig hlegal
  cases hw : s.cfg.busw <;>
    simp [phasesLeft, phasesIfLastIteration, secondFraming, busLines, phaseBudget, hw] <;> omega

/-- With no `rst` to come and enough phases, a transfer in progress is run to its response: a core status. -/
theorem runPhases_ends {fuel : Nat} (h : TransferInProgress c s) (hr : s.rstIn = none)
    (hfuel : phasesLeft s ≤ fuel) :
    (runPhases fuel s).ph = .idle ∧ (runPhases fuel s).res.isCore = true := by
  induction fuel generalizing s with
  | zero => have := h.two_le_phasesLeft; omega
  | succ fuel ih =>
    have hr' := (phaseStep_coreFrame s).rstIn_none hr
    rw [runPhases_busy h.ph_ne_idle hr, countToRst_none hr']
    rcases phaseStep_advances h with ⟨hdone, hres⟩ | ⟨htransfer, hpoll, hlt⟩
    · obtain ⟨fuel, rfl⟩ : ∃ k, fuel = k + 1 := ⟨fuel - 1, by have := h.two_le_phasesLeft; omega⟩
      have hrespond : phaseStep (phaseStep s) = respondCore (phaseStep s) := by
        rw [phaseStep, hdone]
      rw [runPhases_busy (by simp [hdone]) hr', hrespond, countToRst_none (by simpa using hr'),
        runPhases_idle rfl]
      exact ⟨rfl, hres⟩
    · exact ih ⟨phaseStep_phaseWithinPins h.withinPins, htransfer, hpoll⟩ hr' (by omega)

/-- A core instruction on an accepting engine runs its core request. -/
theorem exec_coreInstr_of_accepts (h : Accepts s) (rs : Bit) (b : Byte) :
    exec (coreInstr rs b) s = .next (coreRequest rs b s) := by
  obtain ⟨hlegal, hidle, -⟩ := h
  cases rs <;> exact onIdleEngine_idle hlegal hidle _

theorem coreRequest_of_accepts (h : Accepts s) (rs : Bit) (b : Byte) :
    coreRequest rs b s = runPhases (phaseBudget s.cfg) (accept rs b s) := by
  simp [coreRequest, cutOff_none h.2.2]

/-- A core request on an accepting engine ends in `IDLE` with a core status. -/
theorem coreRequest_ends (h : Accepts s) (rs : Bit) (b : Byte) :
    (coreRequest rs b s).ph = .idle ∧ (coreRequest rs b s).res.isCore = true := by
  have ⟨hlegal, _, hr⟩ := h
  rw [coreRequest_of_accepts h]
  exact runPhases_ends (transferInProgress_accept rs b hlegal) hr (phasesLeft_accept_le rs b hlegal)

/-! ## The phases one by one -/

/-- A busy engine that hears no `rst` performs its phase, whatever else the host holds. -/
theorem step_busy (hlegal : legalConfig s.cfg = true) (hbusy : s.ph ≠ .idle)
    (hhost : s.host.head? ≠ some .rst) : step s = .next (phaseStep s) := by
  unfold step
  rw [onEngine_legal hlegal]
  rcases hh : s.host with _ | ⟨_ | _ | _, rest⟩
  · rfl
  · simp [hbusy]
  · simp [hh] at hhost
  · simp [hbusy]

/-- Steps that begin with `next` run on from there. -/
theorem core_run_succ {t : State} (h : step s = .next t) (n : Nat) : core.run (n + 1) s = core.run n t := by
  simp only [Host.Core.run]
  rw [show core.step s = .next t from h]

/-- Running phases is stepping until `IDLE`, which no earlier step reaches, or until the fuel is used up. -/
theorem runPhases_eq_core_run (fuel : Nat) (hlegal : legalConfig s.cfg = true) (hr : s.rstIn = none)
    (hhost : s.host.head? ≠ some .rst) :
    ∃ n, core.run n s = .next (runPhases fuel s) ∧
      ∀ m < n, ∃ u : State, core.run m s = .next u ∧ u.ph ≠ .idle := by
  induction fuel generalizing s with
  | zero => exact ⟨0, rfl, by simp⟩
  | succ fuel ih =>
    by_cases hidle : s.ph = .idle
    · exact ⟨0, by rw [runPhases_idle hidle]; rfl, by simp⟩
    · have hframe := phaseStep_coreFrame s
      have hr' := hframe.rstIn_none hr
      have hstep := step_busy hlegal hidle hhost
      obtain ⟨n, hrun, hbefore⟩ := ih (hframe.cfg ▸ hlegal) hr' (hframe.host ▸ hhost)
      rw [runPhases_busy hidle hr, countToRst_none hr']
      refine ⟨n + 1, (core_run_succ hstep n).trans hrun, fun m hm => ?_⟩
      cases m with
      | zero => exact ⟨s, rfl, hidle⟩
      | succ m =>
        rw [core_run_succ hstep]
        exact hbefore m (by omega)

/-- Settles O12: the phases of `runPhases` are the steps of the busy engine, and the budget is enough to end. -/
theorem wholeRequestAgreesWithPhases : Obligations.WholeRequestAgreesWithPhases := by
  intro s rs b haccepts hhost
  have ⟨hlegal, _, hr⟩ := haccepts
  have hexec := exec_coreInstr_of_accepts haccepts rs b
  have hidle := (coreRequest_ends haccepts rs b).1
  rw [coreRequest_of_accepts haccepts] at hexec hidle
  obtain ⟨n, hrun, hbefore⟩ := runPhases_eq_core_run (s := accept rs b s) (phaseBudget s.cfg) hlegal hr hhost
  exact ⟨n, _, hexec, hrun, hidle, hbefore⟩

end Sys2Proof.Machine
end

section
/-! PROOFS. The frame of the front-end requests: what a request may write beside its core requests, one lemma per shared
operation of the front-end, then the nineteen requests, each by the operations it is made of. -/

namespace Sys2Proof.Machine

open Sys2Proof.Spec

/-- From `s` to `t` request `i` has run so far: the frame of its core requests, and of the front-end's registers only
those written that the request may write (spec/10_state.md R32, R33, spec/44_init_validation.md R172). -/
structure RequestFrame (i : Instr) (s t : State) : Prop where
  cfg : t.cfg = s.cfg
  host : t.host = s.host
  feResponses : t.feResponses = s.feResponses
  ist : i ≠ .init → t.ist = s.ist
  dcb : setsDisplay i = false → t.dcb = s.dcb
  cur : movesCursor i = false → t.cur = s.cur
  history : s.history <+: t.history
  coreResponses : s.coreResponses <+: t.coreResponses
  names : NamesOnly (reqPins s.cfg) s t
  accepts : Accepts s → Accepts t

/-- Request `i`, begun in `s`, ends with `r`: within its frame, and with a front-end status unless `rst` cuts it. -/
structure EndsWithin (i : Instr) (s : State) (r : FeResult) : Prop where
  frame : RequestFrame i s r.2
  status : Accepts s → r.1.isFrontEnd = true

variable {i : Instr} {s t : State} {r : FeResult}

theorem RequestFrame.trans {u : State} (hst : RequestFrame i s t) (htu : RequestFrame i t u) :
    RequestFrame i s u where
  cfg := htu.cfg.trans hst.cfg
  host := htu.host.trans hst.host
  feResponses := htu.feResponses.trans hst.feResponses
  ist hi := (htu.ist hi).trans (hst.ist hi)
  dcb hi := (htu.dcb hi).trans (hst.dcb hi)
  cur hi := (htu.cur hi).trans (hst.cur hi)
  history := hst.history.trans htu.history
  coreResponses := hst.coreResponses.trans htu.coreResponses
  names := hst.names.trans (hst.cfg ▸ htu.names)
  accepts := htu.accepts ∘ hst.accepts

/-- Writing the front-end's registers, those that the request may write. -/
theorem requestFrame_commit {ist : InitState} {cur : Cursor} {dcb : BitVec 3} (hist : i ≠ .init → ist = s.ist)
    (hdcb : setsDisplay i = false → dcb = s.dcb) (hcur : movesCursor i = false → cur = s.cur) :
    RequestFrame i s { s with ist := ist, cur := cur, dcb := dcb } :=
  ⟨rfl, rfl, rfl, hist, hdcb, hcur, List.prefix_rfl, List.prefix_rfl, .refl s, id⟩

theorem RequestFrame.refl (i : Instr) (s : State) : RequestFrame i s s :=
  requestFrame_commit (fun _ => rfl) (fun _ => rfl) (fun _ => rfl)

/-- Placing the cursor. -/
theorem requestFrame_cur (hmoves : movesCursor i = true) (cur : Cursor) (s : State) :
    RequestFrame i s { s with cur := cur } :=
  requestFrame_commit (fun _ => rfl) (fun _ => rfl) (by simp [hmoves])

theorem requestFrame_coreRequest (i : Instr) (rs : Bit) (b : Byte) (s : State) :
    RequestFrame i s (coreRequest rs b s) := by
  have hframe := coreRequest_coreFrame rs b s
  have ⟨houtside, hhist, hresp⟩ := hframe
  obtain ⟨hcfg, hist, hcur, hdcb, hfe, hhost, -⟩ := (outsideCore_eq_iff _ _).mp houtside
  refine ⟨hcfg, hhost, hfe, fun _ => hist, fun _ => hdcb, fun _ => hcur, hhist, hresp,
    coreRequest_namesOnly rs b s, fun h => ?_⟩
  exact ⟨hcfg ▸ h.1, (coreRequest_ends h rs b).1, hframe.rstIn_none h.2.2⟩

theorem Status.isFrontEnd_of_isCore : ∀ {e : Status}, e.isCore = true → e.isFrontEnd = true
  | .ok, _ | .pinFault, _ | .hardwareTimeout, _ => rfl

/-- A request that ends with the status of a core request just run. -/
theorem endsWithin_coreRequest (i : Instr) (rs : Bit) (b : Byte) (s : State) :
    EndsWithin i s ((coreRequest rs b s).res, coreRequest rs b s) :=
  ⟨requestFrame_coreRequest i rs b s, fun h => Status.isFrontEnd_of_isCore (coreRequest_ends h rs b).2⟩

theorem endsWithin_ok (h : RequestFrame i s t) : EndsWithin i s (.ok, t) := ⟨h, fun _ => rfl⟩

theorem RequestFrame.endsWithin (hst : RequestFrame i s t) (h : EndsWithin i t r) : EndsWithin i s r :=
  ⟨hst.trans h.frame, h.status ∘ hst.accepts⟩

/-! ## The shared operations of the front-end -/

theorem endsWithin_tryCommand {cmd : Byte} {next : State → FeResult} (hnext : ∀ t, EndsWithin i t (next t)) :
    EndsWithin i s (tryCommand cmd s next) := by
  dsimp only [tryCommand]
  split
  · exact (requestFrame_coreRequest i false cmd s).endsWithin (hnext _)
  · exact endsWithin_coreRequest i false cmd s

theorem endsWithin_tryData {b : Byte} {next : State → FeResult} (hnext : ∀ t, EndsWithin i t (next t)) :
    EndsWithin i s (tryData b s next) := by
  dsimp only [tryData]
  split
  · exact (requestFrame_coreRequest i true b s).endsWithin (hnext _)
  · exact endsWithin_coreRequest i true b s

theorem endsWithin_gate {next : State → FeResult} (hnext : EndsWithin i s (next s)) :
    EndsWithin i s (gate s next) := by
  unfold gate
  split
  · exact hnext
  · exact ⟨.refl i s, fun _ => rfl⟩

/-- A range check: outside the range the request answers `OutOfBounds` and does nothing. -/
theorem endsWithin_ite_outOfBounds {p : Prop} [Decidable p] (h : EndsWithin i s r) :
    EndsWithin i s (if p then r else (.outOfBounds, s)) := by
  split
  · exact h
  · exact ⟨.refl i s, fun _ => rfl⟩

theorem requestFrame_advance (hmoves : movesCursor i = true) (s : State) : RequestFrame i s (advance s) := by
  unfold advance
  split
  · exact requestFrame_cur hmoves _ s
  · exact .refl i s

/-- `PUTBYTE` answers `Full` and does nothing, or runs a core request and, if that ends `OK`, advances (R144). -/
theorem putByte_cases (b : Byte) (s : State) :
    putByte b s = (.full, s) ∨
    putByte b s = (.ended .ok, advance (coreRequest true b s)) ∨
    putByte b s = (.ended (coreRequest true b s).res, coreRequest true b s) := by
  dsimp only [putByte]
  split
  · exact .inl rfl
  · split
    · exact .inr (.inl rfl)
    · exact .inr (.inr rfl)

theorem requestFrame_putByte_ok (hmoves : movesCursor i = true) (b : Byte) (s : State) :
    RequestFrame i s (advance (coreRequest true b s)) :=
  (requestFrame_coreRequest i true b s).trans (requestFrame_advance hmoves _)

theorem endsWithin_putChar (hmoves : movesCursor i = true) (b : Byte) (s : State) :
    EndsWithin i s (putChar b s) := by
  unfold putChar
  rcases putByte_cases b s with e | e | e <;> rw [e]
  · exact endsWithin_ok (.refl i s)
  · exact endsWithin_ok (requestFrame_putByte_ok hmoves b s)
  · exact endsWithin_coreRequest i true b s

theorem endsWithin_putText (hmoves : movesCursor i = true) (text : List Byte) (s : State) :
    EndsWithin i s (putText text s) := by
  induction text generalizing s with
  | nil => exact endsWithin_ok (.refl i s)
  | cons b rest ih =>
    unfold putText
    rcases putByte_cases b s with e | e | e <;> rw [e]
    · exact endsWithin_ok (.refl i s)
    · exact (requestFrame_putByte_ok hmoves b s).endsWithin (ih _)
    · cases hres : (coreRequest true b s).res with
      | ok => exact (requestFrame_coreRequest i true b s).endsWithin (ih _)
      | _ =>
        have hends := endsWithin_coreRequest i true b s
        rw [hres] at hends
        exact hends

theorem endsWithin_moveCursor {line col : Byte} {next : State → FeResult} (hmoves : movesCursor i = true)
    (hnext : ∀ t, EndsWithin i t (next t)) : EndsWithin i s (moveCursor line col s next) :=
  endsWithin_ite_outOfBounds
    (endsWithin_tryCommand fun t => (requestFrame_cur hmoves _ t).endsWithin (hnext _))

theorem endsWithin_sendDisplay (hsets : setsDisplay i = true) (dcb : BitVec 3) (s : State) :
    EndsWithin i s (sendDisplay dcb s) :=
  endsWithin_tryCommand fun _ =>
    endsWithin_ok (requestFrame_commit (fun _ => rfl) (by simp [hsets]) (fun _ => rfl))

theorem endsWithin_sendBitmap {next : State → FeResult} (hnext : ∀ t, EndsWithin i t (next t))
    (bitmap : List Byte) (s : State) : EndsWithin i s (sendBitmap bitmap s next) := by
  induction bitmap generalizing s with
  | nil => exact hnext s
  | cons b rest ih => exact endsWithin_tryData ih

theorem endsWithin_sendCommands (cmds : List Byte) (s : State) : EndsWithin i s (sendCommands cmds s) := by
  induction cmds generalizing s with
  | nil => exact endsWithin_ok (.refl i s)
  | cons c rest ih => exact endsWithin_tryCommand ih

/-- `INIT` may write all three registers, whatever its commands end with. -/
theorem endsWithin_concludeInit (h : EndsWithin .init s r) : EndsWithin .init s (concludeInit r) := by
  unfold concludeInit
  split
  · exact endsWithin_ok (h.frame.trans (requestFrame_commit nofun nofun nofun))
  · exact ⟨h.frame.trans (requestFrame_commit nofun (fun _ => rfl) (fun _ => rfl)), h.status⟩

/-! ## The nineteen requests -/

/-- Every front-end request is a body run by `frontEnd` that ends within the frame of the request. -/
theorem exec_eq_frontEnd {i : Instr} (hi : gated i = true ∨ i = .init) (s : State) :
    ∃ body, exec i s = frontEnd body s ∧ EndsWithin i s (body s) := by
  unfold exec
  cases i with dsimp only
  | wrc | wrd | clrpin | setpin | readpin => rcases hi with hi | hi <;> cases hi
  | init =>
    refine ⟨_, rfl, endsWithin_concludeInit ?_⟩
    exact (requestFrame_commit nofun nofun nofun).endsWithin (endsWithin_sendCommands _ _)
  | wrchar ch => exact ⟨_, rfl, endsWithin_gate (endsWithin_putChar rfl ch s)⟩
  | wrstr text => exact ⟨_, rfl, endsWithin_gate (endsWithin_putText rfl text s)⟩
  | wrint v => exact ⟨_, rfl, endsWithin_gate (endsWithin_putText rfl (decimalText v) s)⟩
  | wrcharat line col ch =>
    exact ⟨_, rfl, endsWithin_gate (endsWithin_moveCursor rfl (endsWithin_putChar rfl ch))⟩
  | wrstrat line col text =>
    exact ⟨_, rfl, endsWithin_gate (endsWithin_moveCursor rfl (endsWithin_putText rfl text))⟩
  | setcursor line col =>
    exact ⟨_, rfl, endsWithin_gate (endsWithin_moveCursor rfl fun t => endsWithin_ok (.refl _ t))⟩
  | clear | home =>
    exact ⟨_, rfl, endsWithin_gate (endsWithin_tryCommand fun t => endsWithin_ok (requestFrame_cur rfl _ t))⟩
  | shiftl | shiftr =>
    exact ⟨_, rfl, endsWithin_gate (endsWithin_tryCommand fun t => endsWithin_ok (.refl _ t))⟩
  | dispon | dispoff | curon | curoff | blinkon | blinkoff =>
    exact ⟨_, rfl, endsWithin_gate (endsWithin_sendDisplay rfl _ s)⟩
  | wrglyph index =>
    exact ⟨_, rfl, endsWithin_gate (endsWithin_ite_outOfBounds (endsWithin_putChar rfl index s))⟩
  | defglyph index bitmap =>
    refine ⟨_, rfl, endsWithin_gate (endsWithin_ite_outOfBounds (endsWithin_tryCommand fun t => ?_))⟩
    exact endsWithin_sendBitmap (fun _ => endsWithin_tryCommand fun u => endsWithin_ok (.refl _ u)) bitmap t

/-- A front-end request that gives a next state presented how it ended. -/
theorem exec_frontEnd_next (hi : gated i = true ∨ i = .init) (h : exec i s = .next t) :
    ∃ r, EndsWithin i s r ∧ t = respondFrontEnd r := by
  obtain ⟨body, hbody, hends⟩ := exec_eq_frontEnd hi s
  obtain ⟨-, -, h⟩ := onIdleEngine_next (hbody ▸ h)
  split at h
  · exact ⟨body s, hends, (Host.Outcome.next.inj h).symm⟩
  · cases h

/-- Presenting the status appends it; a request cut by `rst` presents none. -/
theorem respondFrontEnd_cases (r : FeResult) :
    (cutOff r.2 = true ∧ respondFrontEnd r = r.2) ∨
    (cutOff r.2 = false ∧ respondFrontEnd r = answer r.1 r.2) := by
  unfold respondFrontEnd
  cases h : cutOff r.2 <;> simp [answer]

/-- Settles O53: the request ends within its frame, accepting, and presents the status it ended with. -/
theorem frontEndRequestFrame : Obligations.FrontEndRequestFrame := by
  intro s t i haccepts hi h
  obtain ⟨r, ⟨hframe, hstatus⟩, rfl⟩ := exec_frontEnd_next hi h
  obtain ⟨hcfg, hhost, hfe, hist, hdcb, hcur, -, -, ⟨hlines, -⟩, hends⟩ := hframe
  obtain ⟨-, hidle, hr⟩ := hends haccepts
  have hresponded : respondFrontEnd r = answer r.1 r.2 := by
    simp [respondFrontEnd, cutOff_none hr, answer]
  rw [hresponded]
  exact ⟨hcfg, hhost, hidle, ⟨r.1, hstatus haccepts, by simp [answer, hfe]⟩, hist, hdcb, hcur, hlines⟩

end Sys2Proof.Machine
end

section
/-! PROOFS. What every step keeps: the configuration is constant, and the records only grow. -/

namespace Sys2Proof.Machine

open Sys2Proof.Spec

/-- From `s` to `t` the configuration is kept, and the history and the two lists of statuses only grew. -/
def RecordsExtend (s t : State) : Prop :=
  t.cfg = s.cfg ∧ s.history <+: t.history ∧ s.coreResponses <+: t.coreResponses ∧ s.feResponses <+: t.feResponses

variable {s t : State}

theorem RecordsExtend.refl (s : State) : RecordsExtend s s :=
  ⟨rfl, List.prefix_rfl, List.prefix_rfl, List.prefix_rfl⟩

theorem CoreFrame.recordsExtend (h : CoreFrame s t) : RecordsExtend s t := by
  obtain ⟨houtside, hhist, hresp⟩ := h
  obtain ⟨hcfg, -, -, -, hfe, -, -⟩ := (outsideCore_eq_iff _ _).mp houtside
  exact ⟨hcfg, hhist, hresp, hfe ▸ List.prefix_rfl⟩

theorem exec_frontEnd_recordsExtend {i : Instr} (hi : gated i = true ∨ i = .init) (h : exec i s = .next t) :
    RecordsExtend s t := by
  obtain ⟨r, ⟨hframe, -⟩, rfl⟩ := exec_frontEnd_next hi h
  rcases respondFrontEnd_cases r with ⟨-, e⟩ | ⟨-, e⟩ <;> rw [e]
  · exact ⟨hframe.cfg, hframe.history, hframe.coreResponses, hframe.feResponses ▸ List.prefix_rfl⟩
  · exact ⟨hframe.cfg, hframe.history, hframe.coreResponses, by simp [answer, hframe.feResponses]⟩

/-- A pin word that gives a next state was one transaction, or was cut by `rst`. -/
theorem pinTransaction_recordsExtend {id : PinId} {run : State → State} (h : pinTransaction id s run = .next t)
    (hrun : RecordsExtend s (run s)) : RecordsExtend s t := by
  obtain ⟨-, h⟩ := onEngine_next h
  split at h
  · rw [← Host.Outcome.next.inj h]
    split
    · exact .refl s
    · exact hrun
  · cases h

/-- Taking the error of a failed transaction changes no record. -/
theorem RecordsExtend.pinAnswered (h : RecordsExtend s t) (ok : Bool) : RecordsExtend s (pinAnswered ok t) := by
  unfold Machine.pinAnswered
  split <;> exact h

theorem exec_recordsExtend {i : Instr} (h : exec i s = .next t) : RecordsExtend s t := by
  cases i with
  | wrc b =>
    obtain ⟨-, -, rfl⟩ := exec_coreInstr_next (rs := false) h
    exact (coreRequest_coreFrame false b s).recordsExtend
  | wrd b =>
    obtain ⟨-, -, rfl⟩ := exec_coreInstr_next (rs := true) h
    exact (coreRequest_coreFrame true b s).recordsExtend
  | clrpin id | setpin id =>
    unfold exec at h
    exact pinTransaction_recordsExtend h ((coreFrame_pinWrite id _ s).recordsExtend.pinAnswered _)
  | readpin id =>
    unfold exec at h
    exact pinTransaction_recordsExtend h ((coreFrame_pinRead id s).recordsExtend.pinAnswered _)
  | init => exact exec_frontEnd_recordsExtend (.inr rfl) h
  | _ => exact exec_frontEnd_recordsExtend (.inl rfl) h

theorem runRequest_recordsExtend {r : Request} (h : runRequest r s = .next t) : RecordsExtend s t := by
  unfold runRequest at h
  split at h
  · split at h
    · exact exec_recordsExtend h
    · cases h
  · cases h

/-- A request that gives a state after `rst` gave one before it. -/
theorem thenReset_next {o : Host.Outcome State Fault Refusal} (h : thenReset o = .next t) :
    ∃ u, o = .next u ∧ t = resetEngine u := by
  cases o with
  | next u => exact ⟨u, rfl, (Host.Outcome.next.inj h).symm⟩
  | fault | refused => cases h

/-- Settles O56: a phase, `rst` and every request extend the records, and a step is one of these. -/
theorem historyOnlyGrows : Obligations.HistoryOnlyGrows := by
  intro s t h
  change RecordsExtend s t
  obtain ⟨-, h⟩ := onEngine_next h
  have hphase (h : Host.Outcome.next (phaseStep s) = (.next t : Host.Outcome State Fault Refusal)) :
      RecordsExtend s t :=
    Host.Outcome.next.inj h ▸ (phaseStep_coreFrame s).recordsExtend
  rcases hhost : s.host with _ | ⟨r | _ | ⟨r, k⟩, rest⟩ <;> simp only [hhost] at h
  · exact hphase h
  · split at h
    · exact (runRequest_recordsExtend h :)
    · exact hphase h
  · exact Host.Outcome.next.inj h ▸ RecordsExtend.refl s
  · split at h
    · obtain ⟨u, hu, rfl⟩ := thenReset_next h
      exact (runRequest_recordsExtend hu :)
    · exact hphase h

end Sys2Proof.Machine
end

section
/-! PROOFS. What a step does with the host's events (spec/20_memory.md R61, spec/41_transfer_sequencer.md R110): an idle
engine runs the presented word, a busy one leaves it and does not look at it. -/

namespace Sys2Proof.Machine

variable {s : State}

/-- An idle engine runs the presented request, with the word taken from the host and no `rst` to come. -/
theorem step_idle_request {r : Request} {rest : List HostEvent} (hlegal : legalConfig s.cfg = true)
    (hidle : s.ph = .idle) (hhost : s.host = .request r :: rest) :
    step s = runRequest r { s with host := rest, rstIn := none } := by
  simp [step, onEngine_legal hlegal, hhost, hidle]

/-- Settles O10: `runRequest` is `exec` of the decoded instruction, or the refusal of an internal port. -/
theorem stepRunsDecodedRequest : Obligations.StepRunsDecodedRequest := by
  intro s r rest i hlegal hidle hhost hdecode
  rw [step_idle_request hlegal hidle hhost]
  have hport := hostMayPresent_eq_false_iff s.cfg r
  constructor
  · intro hown
    have hmay : hostMayPresent s.cfg r = true := by simpa using mt hport.mp hown
    exact runRequest_decoded hmay hdecode
  · intro hfe hcp
    exact runRequest_internal (hport.mpr ⟨hfe, hcp⟩)

/-! ## No phase looks at the host's events -/

/-- The same engine with other host events. -/
def State.withHost (host : List HostEvent) (s : State) : State := { s with host := host }

variable {host : List HostEvent}

theorem popDraw_withHost (s : State) : popDraw (s.withHost host) = (popDraw s).withHost host := by
  unfold popDraw State.withHost
  cases s.draws <;> rfl

theorem pinWrite_withHost (pin : PinId) (v : Bit) (s : State) :
    pinWrite pin v (s.withHost host) = Prod.map id (State.withHost host) (pinWrite pin v s) := by
  have hanswer : answersOk (s.withHost host) pin = answersOk s pin := rfl
  unfold pinWrite
  rw [hanswer, popDraw_withHost]
  cases answersOk s pin <;> rfl

theorem pinRead_withHost (pin : PinId) (s : State) :
    pinRead pin (s.withHost host) = Prod.map id (State.withHost host) (pinRead pin s) := by
  have hanswer : answersOk (s.withHost host) pin = answersOk s pin := rfl
  have hlevel : readLevel (s.withHost host) pin = readLevel s pin := rfl
  unfold pinRead
  rw [hanswer, hlevel, popDraw_withHost]
  cases answersOk s pin <;> rfl

theorem drive_withHost {id : PinId} {v : Bit} {next : State → State}
    (hnext : Function.Commute next (State.withHost host)) :
    Function.Commute (drive id v next) (State.withHost host) := by
  intro s
  unfold drive
  rw [pinWrite_withHost]
  rcases pinWrite id v s with ⟨_ | _, u⟩
  · rfl
  · exact hnext u

theorem sample_withHost {id : PinId} {next : Bit → State → State}
    (hnext : ∀ b, Function.Commute (next b) (State.withHost host)) :
    Function.Commute (sample id next) (State.withHost host) := by
  intro s
  unfold sample
  rw [pinRead_withHost]
  rcases pinRead id s with ⟨_ | b, u⟩
  · rfl
  · exact hnext b u

/-- A branch that does not look at the host's events. -/
theorem ite_eq_withHost {p : Prop} [Decidable p] {a b a' b' : State} (ha : a' = a.withHost host)
    (hb : b' = b.withHost host) : (if p then a' else b') = (if p then a else b).withHost host := by
  split <;> assumption

/-- No phase reads or writes the host's events. -/
theorem phaseStep_withHost : Function.Commute phaseStep (State.withHost host) := by
  intro s
  have hph : (s.withHost host).ph = s.ph := rfl
  unfold phaseStep
  rw [hph]
  cases s.ph with dsimp only
  | fRs | fRw | fEhi | fElo | pRw | pEhi | pElo | pEhi2 | pElo2 =>
    refine drive_withHost ?_ s
    exact fun _ => rfl
  | pRs =>
    refine drive_withHost ?_ { s with doe := false }
    exact fun _ => rfl
  | fData =>
    have hnext : Function.Commute
        (fun u => if u.di = topLine u.cfg.busw then goto .fSetup u else { u with di := u.di + 1 })
        (State.withHost host) :=
      fun _ => ite_eq_withHost rfl rfl
    have hdi : (s.withHost host).di = s.di := rfl
    dsimp only [phaseFData]
    rw [hdi]
    split
    · exact drive_withHost hnext { s with doe := true }
    · exact drive_withHost hnext s
  | pRead =>
    refine sample_withHost ?_ s
    exact fun _ _ => rfl
  | fHold =>
    dsimp only [phaseFHold]
    exact ite_eq_withHost rfl rfl
  | pTest =>
    dsimp only [phasePTest]
    exact ite_eq_withHost rfl (ite_eq_withHost rfl rfl)
  | _ => rfl

/-- Settles O11: a step of a busy engine is its phase, which neither reads nor writes the host's events. -/
theorem busyEngineHoldsRequests : Obligations.BusyEngineHoldsRequests := by
  intro s hlegal
  constructor
  · intro hbusy hhost
    refine ⟨phaseStep s, step_busy hlegal hbusy hhost, (phaseStep_coreFrame s).host, ?_⟩
    have hstep : step { s with host := [] } = .next (phaseStep (s.withHost [])) := step_busy hlegal hbusy nofun
    rw [hstep, phaseStep_withHost s]
    rfl
  · intro hidle hhost
    simp [step, onEngine_legal hlegal, hhost, phaseStep, hidle]

end Sys2Proof.Machine
end

section
/-! PROOFS. What the data lines and the control lines carry in each phase of a transfer (spec/20_memory.md R52, R59):
the byte or a nibble in the strobe of a framing, the engine driving, and a released bus in the strobes of the poll. -/

namespace Sys2Proof.Machine

open Sys2Proof.Spec

/-! ## The strobes of a transfer -/

/-- The strobe of a framing (spec/40_bus_framing.md R106, R107). -/
def framingStrobe (c : Config) (rs : Bit) (b : Byte) (nib : Bit) : Strobe :=
  ⟨rsLevel c rs, c.lvlWrite, .engine (framingValue c.busw nib b)⟩

/-- A strobe of the poll (spec/41_transfer_sequencer.md R127). -/
def pollStrobe (c : Config) (flag : Option Bit) : Strobe := ⟨c.lvlCmd, c.lvlRead, .controller flag⟩

/-- What a strobe that began now would carry. -/
def onBus (c : Config) (s : State) : Strobe :=
  ⟨s.lines.rs, if c.rwPresent then s.lines.rw else c.lvlWrite,
    if s.doe then .engine (busValue c.busw s.lines.dl) else .controller none⟩

/-- A strobe that begins carries what was on the bus: driving `E` leaves the other lines. -/
theorem carried_eq_onBus (c : Config) (level : Bit) (s : State) :
    carried c ⟨.wrote .e level, s.doe, setLine s.lines .e level⟩ = onBus c s := rfl

theorem nibbleMask_getLsbD {j : Nat} (hj : j < 8) : (0x0F#8).getLsbD j = decide (j < 4) := by
  interval_cases j <;> rfl

/-- The lines of the bus carry a framing if each of them carries its bit. -/
theorem busValue_eq_framingValue {w : BusWidth} {dl : BitVec 8} {nib : Bit} {b : Byte}
    (h : ∀ j : Fin 8, j ≤ topLine w → dl.getLsbD j.val = (framingValue w nib b).getLsbD j.val) :
    busValue w dl = framingValue w nib b := by
  cases w with
  | eight => exact BitVec.eq_of_getLsbD_eq fun j hj => h ⟨j, hj⟩ (by simp only [topLine, Fin.le_def]; omega)
  | four =>
    refine BitVec.eq_of_getLsbD_eq fun j hj => ?_
    by_cases hlow : j < 4
    · have hline := h ⟨j, hj⟩ (by simp only [topLine, Fin.le_def]; omega)
      simp [busValue, nibbleMask_getLsbD hj, hlow, ← hline]
    · cases nib <;> simp [busValue, framingValue, nibbleMask_getLsbD hj, hlow]

/-! ## The bus in each phase -/

/-- What the next strobe needs and earlier phases have already put on the bus. -/
def busPrepared (c : Config) (rs : Bit) (b : Byte) (s : State) : Prop :=
  match s.ph with
  | .fRw => s.lines.rs = rsLevel c rs ∧ s.di = 0
  | .fData =>
    (onBus c s).rs = rsLevel c rs ∧ (onBus c s).rw = c.lvlWrite ∧ (s.di ≠ 0 → s.doe = true) ∧
      ∀ j < s.di, s.lines.dl.getLsbD j.val = (framingValue c.busw s.nib b).getLsbD j.val
  | .fSetup | .fEhi | .fPw | .fElo | .fHold => onBus c s = framingStrobe c rs b s.nib
  | .pRw => s.lines.rs = c.lvlCmd ∧ s.doe = false
  | .pSetup | .pEhi | .pPw | .pRead | .pElo | .pHold | .pEhi2 | .pPw2 | .pElo2 | .pHold2 | .pTest =>
    onBus c s = pollStrobe c none
  | .idle | .fRs | .sDelay | .pRs | .done => True

/-- The transfer of a byte in `s`: the request it carries, and the bus as its phase needs it. -/
structure Transferring (c : Config) (rs : Bit) (b : Byte) (s : State) : Prop where
  withinPins : PhaseWithinPins c s
  reqRs : s.reqRs = rs
  reqByte : s.reqByte = b
  bus : busPrepared c rs b s

variable {c : Config} {rs : Bit} {b : Byte} {s : State}

/-- A failed transaction goes to `DONE`, which needs nothing of the bus. -/
theorem busPrepared_abort (e : Status) (s : State) : busPrepared c rs b (abort e s) := trivial

theorem busPrepared_drive {id : PinId} {v : Bit} {next : State → State}
    (hnext : busPrepared c rs b (next (logEvent (.wrote id v) { popDraw s with lines := setLine s.lines id v }))) :
    busPrepared c rs b (drive id v next s) := by
  rcases drive_cases id v next s with ⟨-, e⟩ | ⟨-, e⟩ <;> rw [e]
  · exact hnext
  · exact busPrepared_abort _ _

/-- Writing data line `i`, the lines below it carrying their bits of a value, makes it carry its own. -/
theorem setDataLine_bits_le {dl v : BitVec 8} {i : Fin 8} (h : ∀ j < i, dl.getLsbD j.val = v.getLsbD j.val) :
    ∀ j ≤ i, (setDataLine dl i (v.getLsbD i.val)).getLsbD j.val = v.getLsbD j.val := by
  intro j hj
  rw [setDataLine_getLsbD]
  split
  · next heq => rw [heq]
  · next hne => exact h j (lt_of_le_of_ne hj (Ne.symm hne))

/-- The lines below the one after `i` are those up to `i`, if `i` is not the top line. -/
theorem le_of_lt_succ_of_ne_topLine {w : BusWidth} {i j : Fin 8} (hne : i ≠ topLine w) (h : j < i + 1) : j ≤ i := by
  cases w <;> revert i j <;> decide

/-- `F_DATA` after its write: on to the next line, or to `F_SETUP` (spec/40_bus_framing.md R98). -/
def afterDataLine (s : State) : State :=
  if s.di = topLine s.cfg.busw then goto .fSetup s else { s with di := s.di + 1 }

/-- `F_DATA` writes its line with the drivers enabled: at the first line it enables them, after it they are. -/
theorem phaseFData_eq (hdoe : s.di ≠ 0 → s.doe = true) :
    phaseFData s = drive (.dl s.di) ((framingValue s.cfg.busw s.nib s.reqByte).getLsbD s.di.val) afterDataLine
      { s with doe := true } := by
  have henabled : (if s.di = 0 then { s with doe := true } else s) = { s with doe := true } := by
    split
    · rfl
    · next hne => rw [← hdoe hne]
  dsimp only [phaseFData]
  rw [henabled]
  rfl

/-- Every phase leaves on the bus what the phase it leads to needs. -/
theorem phaseStep_busPrepared (h : Transferring c rs b s) : busPrepared c rs b (phaseStep s) := by
  obtain ⟨⟨hcfg, -, hrw⟩, rfl, rfl, hbus⟩ := h
  subst hcfg
  unfold phaseStep
  cases hp : s.ph with (rw [hp] at hrw; simp only [busPrepared, hp] at hbus; dsimp only)
  | idle => simp [busPrepared, hp]
  | fRs =>
    refine busPrepared_drive ?_
    cases hconn : s.cfg.rwPresent <;> simp [busPrepared, onBus, setLine, hconn]
  | fRw =>
    obtain ⟨hrs, hdi0⟩ := hbus
    refine busPrepared_drive ?_
    simp [busPrepared, onBus, setLine, hrs, hdi0]
  | fData =>
    obtain ⟨hrs, hwrite, hdoe, hbits⟩ := hbus
    have hwritten := setDataLine_bits_le hbits
    rw [phaseFData_eq hdoe]
    refine busPrepared_drive ?_
    by_cases htop : s.di = topLine s.cfg.busw
    · have hvalue := busValue_eq_framingValue (htop ▸ hwritten)
      simpa [busPrepared, onBus, framingStrobe, setLine, afterDataLine, htop] using
        And.intro hrs (And.intro hwrite hvalue)
    · have hbelow : ∀ j < s.di + 1, j ≤ s.di := fun _ hj => le_of_lt_succ_of_ne_topLine htop hj
      simpa [busPrepared, onBus, setLine, afterDataLine, htop, hp] using
        And.intro hrs (And.intro hwrite fun j hj => hwritten j (hbelow j hj))
  | fEhi | fElo | pEhi | pElo | pEhi2 | pElo2 =>
    refine busPrepared_drive ?_
    simpa [busPrepared, onBus, setLine] using hbus
  | fSetup | fPw | pSetup | pPw | pPw2 | pHold2 => exact hbus
  | fHold =>
    have hrs := congrArg Strobe.rs hbus
    have hwrite := congrArg Strobe.rw hbus
    dsimp only [phaseFHold]
    split
    · exact ⟨hrs, hwrite, by simp, by simp⟩
    · cases hconn : s.cfg.rwPresent <;> simp [busPrepared, waitFor_eq, hconn]
  | pRs =>
    refine busPrepared_drive ?_
    simp [busPrepared, setLine]
  | pRw =>
    obtain ⟨hrs, hdoe⟩ := hbus
    refine busPrepared_drive ?_
    simp [busPrepared, onBus, setLine, pollStrobe, hrs, hdoe, hrw rfl]
  | pRead =>
    unfold phasePRead
    rcases sample_cases (.dl (topLine s.cfg.busw)) (fun b t => goto .pElo { t with bfs := b }) s
      with ⟨-, e⟩ | ⟨-, e⟩ <;> rw [e]
    · simpa [busPrepared, onBus] using hbus
    · trivial
  | pHold => cases hw : s.cfg.busw <;> simpa [busPrepared, phasePHold, waitFor_eq, hw, onBus] using hbus
  | pTest =>
    dsimp only [phasePTest]
    split
    · trivial
    · split
      · trivial
      · exact hbus
  | sDelay | done => trivial

/-! ## The request in progress -/

/-- `REQ_RS` and `REQ_BYTE`, written by acceptance only (spec/10_state.md R21). -/
def State.request (s : State) : Bit × Byte := (s.reqRs, s.reqByte)

theorem drive_request {id : PinId} {v : Bit} {next : State → State} (hnext : ∀ u, (next u).request = u.request)
    (s : State) : (drive id v next s).request = s.request := by
  rcases drive_cases id v next s with ⟨-, e⟩ | ⟨-, e⟩ <;> rw [e]
  · rw [hnext]; simp [State.request]
  · simp [State.request]

theorem sample_request {id : PinId} {next : Bit → State → State} (hnext : ∀ b u, (next b u).request = u.request)
    (s : State) : (sample id next s).request = s.request := by
  rcases sample_cases id next s with ⟨-, e⟩ | ⟨-, e⟩ <;> rw [e]
  · rw [hnext]; simp [State.request]
  · simp [State.request]

/-- No phase changes the request in progress. -/
theorem phaseStep_request (s : State) : (phaseStep s).request = s.request := by
  unfold phaseStep
  cases hp : s.ph with dsimp only
  | fRs | fRw | fEhi | fElo | pRw | pEhi | pElo | pEhi2 | pElo2 =>
    refine drive_request ?_ s
    exact fun _ => rfl
  | pRs =>
    refine drive_request ?_ { s with doe := false }
    exact fun _ => rfl
  | fData =>
    have hnext (u : State) : (afterDataLine u).request = u.request := by
      unfold afterDataLine
      split <;> rfl
    dsimp only [phaseFData]
    split
    · exact drive_request hnext { s with doe := true }
    · exact drive_request hnext s
  | pRead =>
    refine sample_request ?_ s
    exact fun _ _ => rfl
  | fHold => dsimp only [phaseFHold]; split <;> rfl
  | pTest =>
    dsimp only [phasePTest]
    split
    · rfl
    · split <;> rfl
  | _ => rfl

/-- Every phase of a transfer prepares the bus for the phase it leads to. -/
theorem phaseStep_transferring (h : Transferring c rs b s) : Transferring c rs b (phaseStep s) where
  withinPins := phaseStep_phaseWithinPins h.withinPins
  reqRs := (congrArg Prod.fst (phaseStep_request s)).trans h.reqRs
  reqByte := (congrArg Prod.snd (phaseStep_request s)).trans h.reqByte
  bus := phaseStep_busPrepared h

theorem Transferring.countToRst (h : Transferring c rs b s) : Transferring c rs b (countToRst s) :=
  ⟨h.withinPins.countToRst, h.reqRs, h.reqByte, h.bus⟩

theorem transferring_accept (rs : Bit) (b : Byte) (s : State) : Transferring s.cfg rs b (accept rs b s) :=
  ⟨phaseWithinPins_accept rs b s, rfl, rfl, trivial⟩

end Sys2Proof.Machine
end

section
/-! PROOFS. The strobes of a transfer (spec/20_memory.md R52, R59): how one more event of the history changes the
strobes seen so far, which strobes each phase still owes, and that every phase pays what it owes. -/

namespace Sys2Proof.Machine

open Sys2Proof.Spec

/-! ## One more event of a history -/

theorem Pulse.afterAll_concat (c : Config) (p : Pulse) (h : List Moment) (m : Moment) :
    p.afterAll c (h ++ [m]) = (p.afterAll c h).after c m := by
  simp [Pulse.afterAll]

theorem strobes_concat (c : Config) (h : List Moment) (m : Moment) :
    strobes c (h ++ [m]) = strobes c h ++ ((Pulse.low.afterAll c h).finished c m).toList := by
  simp [strobes, strobesFrom_append, strobesFrom]

theorem answersIn_concat (tr : List Event) (e : Event) : answersIn (tr ++ [e]) = answersIn tr ++ e.answer.toList := by
  cases h : e.answer <;> simp [answersIn, h]

/-- The level of `E` after a history that it was at `e` before. -/
def enableAfter (e : Bit) (h : List Moment) : Bit := h.foldl (fun _ m => m.lines.e) e

theorem enableAfter_concat (e : Bit) (h : List Moment) (m : Moment) : enableAfter e (h ++ [m]) = m.lines.e := by
  simp [enableAfter]

/-- The last event of a history begins a strobe with a leading edge if `E` was idle before it. -/
theorem leadingEdges_concat (c : Config) (e : Bit) (h : List Moment) (m : Moment) :
    leadingEdges c e (h ++ [m]) ↔
      leadingEdges c e h ∧ (m.event = .wrote .e c.lvlEAct → enableAfter e h = c.lvlEIdle) := by
  induction h generalizing e with
  | nil => simp [leadingEdges, enableAfter]
  | cons first rest ih =>
    have hfirst : enableAfter e (first :: rest) = enableAfter first.lines.e rest := rfl
    simp [leadingEdges, ih, hfirst, and_assoc]

/-! ## Strobes seen and strobes owed -/

/-- The second strobe of a framing pair, owed in the first (spec/40_bus_framing.md R107). -/
def lowNibbleStrobes (c : Config) (rs : Bit) (b : Byte) (nib : Bit) : List Strobe :=
  if c.busw = .four ∧ nib = false then [framingStrobe c rs b true] else []

/-- The second strobe of a poll iteration, which nothing samples (spec/41_transfer_sequencer.md R124). -/
def unreadStrobes (c : Config) : List Strobe := if c.busw = .four then [pollStrobe c none] else []

theorem framingValue_eight (nib : Bit) (b : Byte) : framingValue .eight nib b = b := rfl

theorem framingValue_four_high (b : Byte) : framingValue .four false b = b >>> 4 := by
  refine BitVec.eq_of_getLsbD_eq fun j hj => ?_
  by_cases hlow : j < 4
  · simp [framingValue, hlow, hj]
  · have hout : b.getLsbD (4 + j) = false := BitVec.getLsbD_of_ge b _ (by omega)
    simp [framingValue, hlow, hout]

theorem framingValue_four_low (b : Byte) : framingValue .four true b = b &&& 0x0F#8 := by
  refine BitVec.eq_of_getLsbD_eq fun j hj => ?_
  rw [BitVec.getLsbD_and, nibbleMask_getLsbD hj]
  by_cases hlow : j < 4 <;> simp [framingValue, hlow, hj]

/-- Acceptance owes the strobes of the byte. -/
theorem requestStrobes_nil (c : Config) (rs : Bit) (b : Byte) :
    requestStrobes c rs b [] = framingStrobe c rs b false :: lowNibbleStrobes c rs b false := by
  cases hw : c.busw with
  | eight => simp [requestStrobes, framingStrobe, lowNibbleStrobes, rsLevel, hw, framingValue_eight]
  | four =>
    simp [requestStrobes, framingStrobe, lowNibbleStrobes, rsLevel, hw, framingValue_four_high, framingValue_four_low]

/-- A read owes the strobes of its iteration. -/
theorem requestStrobes_concat (c : Config) (rs : Bit) (b : Byte) (reads : List Bit) (r : Bit) :
    requestStrobes c rs b (reads ++ [r]) =
      requestStrobes c rs b reads ++ pollStrobe c (some r) :: unreadStrobes c := by
  cases hw : c.busw <;> simp [requestStrobes, unreadStrobes, pollStrobe, hw]

/-- The history of a transfer so far: its strobes and those owed are the ones of the request with the bits read so
far; `pulse` is the strobe in progress; if `E` was idle at the start, strobes begin with leading edges and `E`, now at
`enable`, is idle outside them. -/
structure Recorded (c : Config) (rs : Bit) (b : Byte) (enable₀ : Bit) (new : List Moment) (enable : Bit)
    (owed : List Strobe) (pulse : Pulse) : Prop where
  strobes : strobes c new ++ owed = requestStrobes c rs b (answersIn (new.map Moment.event))
  inProgress : Pulse.low.afterAll c new = pulse
  edges : enable₀ = c.lvlEIdle →
    leadingEdges c enable₀ new ∧ enableAfter enable₀ new = enable ∧ (pulse = .low → enable = c.lvlEIdle)

variable {c : Config} {rs enable₀ enable : Bit} {b : Byte} {new : List Moment} {owed owed' : List Strobe}
  {st : Strobe} {pulse : Pulse} {m : Moment}

/-- An event that is no read pays the strobe it finishes; only outside strobes may it drive `E` to active. -/
theorem Recorded.concat (h : Recorded c rs b enable₀ new enable owed pulse) (hread : m.event.answer = none)
    (hpaid : owed = (pulse.finished c m).toList ++ owed') (hedge : m.event = .wrote .e c.lvlEAct → pulse = .low)
    (hidle : pulse.after c m = .low → (pulse = .low → enable = c.lvlEIdle) → m.lines.e = c.lvlEIdle) :
    Recorded c rs b enable₀ (new ++ [m]) m.lines.e owed' (pulse.after c m) := by
  obtain ⟨hstrobes, hpulse, hedges⟩ := h
  refine ⟨?_, by rw [Pulse.afterAll_concat, hpulse], fun h₀ => ?_⟩
  · rw [strobes_concat, hpulse, List.append_assoc, ← hpaid, hstrobes]
    simp [answersIn_concat, hread]
  · obtain ⟨hbefore, hnow, hlow⟩ := hedges h₀
    rw [leadingEdges_concat, enableAfter_concat, hnow]
    exact ⟨⟨hbefore, hlow ∘ hedge⟩, rfl, fun hafter => hidle hafter hlow⟩

/-- An event outside the strobes. -/
theorem Recorded.outside (h : Recorded c rs b enable₀ new enable owed .low) (hwrite : ∀ v, m.event ≠ .wrote .e v)
    (hread : m.event.answer = none) (henable : m.lines.e = enable) :
    Recorded c rs b enable₀ (new ++ [m]) m.lines.e owed .low := by
  have hafter : Pulse.low.after c m = .low := by
    unfold Pulse.after
    split <;> simp_all
  have hfinished : Pulse.low.finished c m = none := by
    unfold Pulse.finished
    split <;> simp_all
  have hnew := h.concat (owed' := owed) hread (by simp [hfinished]) (fun _ => rfl) fun _ hlow => henable ▸ hlow rfl
  rwa [hafter] at hnew

/-- `E` to active begins a strobe. -/
theorem Recorded.begin (h : Recorded c rs b enable₀ new enable owed .low) (he : m.event = .wrote .e c.lvlEAct)
    (hcarried : carried c m = st) : Recorded c rs b enable₀ (new ++ [m]) m.lines.e owed (.raised st) := by
  have hafter : Pulse.low.after c m = .raised st := by simp [Pulse.after, he, hcarried]
  have hfinished : Pulse.low.finished c m = none := by simp [Pulse.finished, he]
  have hnew := h.concat (owed' := owed) (by rw [he]; rfl) (by simp [hfinished]) (fun _ => rfl) (by simp [hafter])
  rwa [hafter] at hnew

/-- `W(T_PW)` within a strobe. -/
theorem Recorded.time (h : Recorded c rs b enable₀ new enable owed (.raised st)) (he : m.event = .waited .tPw) :
    Recorded c rs b enable₀ (new ++ [m]) m.lines.e owed (.timed st) := by
  have hafter : (Pulse.raised st).after c m = .timed st := by simp [Pulse.after, he]
  have hfinished : (Pulse.raised st).finished c m = none := by simp [Pulse.finished, he]
  have hnew := h.concat (owed' := owed) (by rw [he]; rfl) (by simp [hfinished]) (by simp [he]) (by simp [hafter])
  rwa [hafter] at hnew

/-- `E` to idle ends the strobe, which was owed. -/
theorem Recorded.finish (h : Recorded c rs b enable₀ new enable (st :: owed) (.timed st))
    (hlevels : c.lvlEAct ≠ c.lvlEIdle) (he : m.event = .wrote .e c.lvlEIdle) (hidle : m.lines.e = c.lvlEIdle) :
    Recorded c rs b enable₀ (new ++ [m]) m.lines.e owed .low := by
  have hafter : (Pulse.timed st).after c m = .low := by simp [Pulse.after, he, hlevels.symm]
  have hfinished : (Pulse.timed st).finished c m = some st := by simp [Pulse.finished, he]
  have hnew := h.concat (owed' := owed) (by rw [he]; rfl) (by simp [hfinished]) (by simp [he, hlevels.symm])
    fun _ _ => hidle
  rwa [hafter] at hnew

/-- The read of the busy flag within a strobe of the poll, which owes the strobes of the iteration. -/
theorem Recorded.read {r : Bit} (h : Recorded c rs b enable₀ new enable [] (.timed (pollStrobe c none)))
    (he : m.event = .readBit (.dl (topLine c.busw)) r) :
    Recorded c rs b enable₀ (new ++ [m]) m.lines.e (pollStrobe c (some r) :: unreadStrobes c)
      (.timed (pollStrobe c (some r))) := by
  obtain ⟨hstrobes, hpulse, hedges⟩ := h
  refine ⟨?_, ?_, fun h₀ => ?_⟩
  · rw [List.append_nil] at hstrobes
    simp [strobes_concat, hpulse, Pulse.finished, he, hstrobes, answersIn_concat, Event.answer, requestStrobes_concat]
  · simp [Pulse.afterAll_concat, hpulse, Pulse.after, he, Strobe.sampled, pollStrobe]
  · simp [leadingEdges_concat, enableAfter_concat, he, (hedges h₀).1]

/-! ## What each phase owes -/

/-- The strobes that a transfer in this phase still owes. -/
def owedStrobes (c : Config) (rs : Bit) (b : Byte) (s : State) : List Strobe :=
  match s.ph with
  | .fRs | .fRw | .fData | .fSetup | .fEhi | .fPw | .fElo =>
    framingStrobe c rs b s.nib :: lowNibbleStrobes c rs b s.nib
  | .fHold => lowNibbleStrobes c rs b s.nib
  | .pElo => pollStrobe c (some s.bfs) :: unreadStrobes c
  | .pHold => unreadStrobes c
  | .pEhi2 | .pPw2 | .pElo2 => [pollStrobe c none]
  | .idle | .sDelay | .pRs | .pRw | .pSetup | .pEhi | .pPw | .pRead | .pHold2 | .pTest | .done => []

/-- The strobe in progress before this phase. -/
def pulseBefore (c : Config) (rs : Bit) (b : Byte) (s : State) : Pulse :=
  match s.ph with
  | .fPw => .raised (framingStrobe c rs b s.nib)
  | .fElo => .timed (framingStrobe c rs b s.nib)
  | .pPw | .pPw2 => .raised (pollStrobe c none)
  | .pRead | .pElo2 => .timed (pollStrobe c none)
  | .pElo => .timed (pollStrobe c (some s.bfs))
  | .idle | .fRs | .fRw | .fData | .fSetup | .fEhi | .fHold | .sDelay | .pRs | .pRw | .pSetup | .pEhi | .pHold
  | .pEhi2 | .pHold2 | .pTest | .done => .low

/-- The history since `s₀` accepted the request is that of a transfer which has come to the phase of `s`. -/
def StrobesPaid (c : Config) (rs : Bit) (b : Byte) (s₀ s : State) : Prop :=
  ∃ new, s.history = s₀.history ++ new ∧
    Recorded c rs b s₀.lines.e new s.lines.e (owedStrobes c rs b s) (pulseBefore c rs b s)

/-- The request has ended, or is about to respond, with `PinFault`. -/
def PinFaulted (s : State) : Prop := s.res = .pinFault ∧ s.ph.inTransfer = false

variable {s₀ s : State}

/-- Using up a pin answer writes the pin answers to come, and nothing else. -/
theorem popDraw_eq (s : State) : ∃ draws drawn, popDraw s = { s with draws := draws, drawn := drawn } := by
  unfold popDraw
  split
  · exact ⟨_, s.drawn, rfl⟩
  · exact ⟨s.draws, _, rfl⟩

/-- A writing phase pays what it owes if its transaction, answered `ok`, leads to what the next phase owes. -/
theorem strobesPaid_drive {id : PinId} {v : Bit} {next : State → State}
    (hnext : ∀ draws drawn, StrobesPaid c rs b s₀ (next (logEvent (.wrote id v)
      { s with lines := setLine s.lines id v, draws := draws, drawn := drawn }))) :
    PinFaulted (drive id v next s) ∨ StrobesPaid c rs b s₀ (drive id v next s) := by
  rcases drive_cases id v next s with ⟨-, e⟩ | ⟨-, e⟩ <;> rw [e]
  · obtain ⟨draws, drawn, hpop⟩ := popDraw_eq s
    rw [hpop]
    exact .inr (hnext draws drawn)
  · exact .inl ⟨rfl, rfl⟩

/-- All data lines of a framing owe the same. -/
theorem strobesPaid_afterDataLine (hp : s.ph = .fData) (h : StrobesPaid c rs b s₀ s) :
    StrobesPaid c rs b s₀ (afterDataLine s) := by
  simp only [StrobesPaid, owedStrobes, pulseBefore, hp] at h
  unfold afterDataLine
  split
  · exact h
  · simpa only [StrobesPaid, owedStrobes, pulseBefore, hp] using h

/-- Every phase pays the strobe it finishes, unless its transaction fails. -/
theorem phaseStep_strobesPaid (htransfer : Transferring c rs b s) (hlevels : c.lvlEAct ≠ c.lvlEIdle)
    (h : StrobesPaid c rs b s₀ s) : PinFaulted (phaseStep s) ∨ StrobesPaid c rs b s₀ (phaseStep s) := by
  obtain ⟨⟨hcfg, -, -⟩, rfl, rfl, hbus⟩ := htransfer
  subst hcfg
  obtain ⟨new, hnew, hrec⟩ := h
  have hlog (m : Moment) : s.history ++ [m] = s₀.history ++ (new ++ [m]) := by rw [hnew, List.append_assoc]
  unfold phaseStep
  cases hp : s.ph with
    (simp only [busPrepared, hp] at hbus; simp only [owedStrobes, pulseBefore, hp] at hrec; dsimp only)
  | idle => exact .inr ⟨new, hnew, by simpa [owedStrobes, pulseBefore, hp] using hrec⟩
  | fRs =>
    refine strobesPaid_drive fun _ _ => ⟨_, hlog _, ?_⟩
    split <;> exact hrec.outside nofun rfl rfl
  | fRw | pRs | pRw => exact strobesPaid_drive fun _ _ => ⟨_, hlog _, hrec.outside nofun rfl rfl⟩
  | fData =>
    obtain ⟨-, -, hdoe, -⟩ := hbus
    rw [phaseFData_eq hdoe]
    refine strobesPaid_drive fun _ _ => strobesPaid_afterDataLine hp ⟨_, hlog _, ?_⟩
    simp only [owedStrobes, pulseBefore, logEvent_ph, hp]
    exact hrec.outside nofun rfl rfl
  | fEhi | pEhi | pEhi2 =>
    exact strobesPaid_drive fun _ _ => ⟨_, hlog _, hrec.begin rfl ((carried_eq_onBus _ _ s).trans hbus)⟩
  | fElo | pElo | pElo2 => exact strobesPaid_drive fun _ _ => ⟨_, hlog _, hrec.finish hlevels rfl rfl⟩
  | fPw | pPw | pPw2 => exact .inr ⟨_, hlog _, hrec.time rfl⟩
  | fSetup | pSetup | sDelay | pHold2 => exact .inr ⟨_, hlog _, hrec.outside nofun rfl rfl⟩
  | fHold =>
    have hpaid := hrec.outside (m := ⟨.waited .tH, s.doe, s.lines⟩) nofun rfl rfl
    dsimp only [phaseFHold]
    split
    · next hfirst =>
      obtain ⟨hw, hnib⟩ : s.cfg.busw = .four ∧ s.nib = false := hfirst
      refine .inr ⟨_, hlog _, ?_⟩
      simpa [owedStrobes, pulseBefore, lowNibbleStrobes, waitFor_eq, hw, hnib] using hpaid
    · next hlast =>
      have howed : lowNibbleStrobes s.cfg s.reqRs s.reqByte s.nib = [] := if_neg hlast
      rw [howed] at hpaid
      refine .inr ⟨_, hlog _, ?_⟩
      cases hconn : s.cfg.rwPresent <;> simpa [owedStrobes, pulseBefore, waitFor_eq, hconn] using hpaid
  | pHold =>
    have hpaid := hrec.outside (m := ⟨.waited .tH, s.doe, s.lines⟩) nofun rfl rfl
    refine .inr ⟨_, hlog _, ?_⟩
    cases hw : s.cfg.busw <;> simpa [owedStrobes, pulseBefore, phasePHold, unreadStrobes, waitFor_eq, hw] using hpaid
  | pRead =>
    unfold phasePRead
    rcases sample_cases (.dl (topLine s.cfg.busw)) (fun b t => goto .pElo { t with bfs := b }) s
      with ⟨-, e⟩ | ⟨-, e⟩ <;> rw [e]
    · obtain ⟨draws, drawn, hpop⟩ := popDraw_eq s
      rw [hpop]
      exact .inr ⟨_, hlog _, hrec.read rfl⟩
    · exact .inl ⟨rfl, rfl⟩
  | pTest =>
    dsimp only [phasePTest]
    split
    · exact .inr ⟨new, hnew, hrec⟩
    · split <;> exact .inr ⟨new, hnew, hrec⟩
  | done => exact .inr ⟨new, hnew, hrec⟩

/-- A request that has faulted only responds. -/
theorem phaseStep_faulted (hbusy : s.ph ≠ .idle) (h : PinFaulted s) : PinFaulted (phaseStep s) := by
  obtain ⟨hres, hph⟩ := h
  unfold phaseStep
  cases hp : s.ph with
  | idle => exact absurd hp hbusy
  | done => exact ⟨hres, rfl⟩
  | _ => simp [hp, Phase.inTransfer] at hph

theorem strobesPaid_accept (rs : Bit) (b : Byte) (s : State) : StrobesPaid s.cfg rs b s (accept rs b s) := by
  refine ⟨[], (List.append_nil _).symm, ?_, rfl, ?_⟩
  · exact (requestStrobes_nil s.cfg rs b).symm
  · exact fun h => ⟨trivial, rfl, fun _ => h⟩

theorem levels_ne_of_legalConfig (h : legalConfig c = true) : c.lvlEAct ≠ c.lvlEIdle := by
  simp only [legalConfig, parametersInRange, Bool.and_eq_true, bne_iff_ne] at h
  obtain ⟨-, -, hlevels⟩ := h
  exact hlevels

/-- A core request that does not end `PinFault` has paid its strobes when it is idle again. -/
theorem coreRequest_strobesPaid (h : Accepts s) (hres : (coreRequest rs b s).res ≠ .pinFault) :
    StrobesPaid s.cfg rs b s (coreRequest rs b s) := by
  rw [coreRequest_of_accepts h] at hres ⊢
  have hrun := runPhases_induction
    (P := fun u => Transferring s.cfg rs b u ∧ (PinFaulted u ∨ StrobesPaid s.cfg rs b s u))
    (fun u hbusy ⟨htransfer, hpaid⟩ => ⟨(phaseStep_transferring htransfer).countToRst,
      hpaid.elim (.inl ∘ phaseStep_faulted hbusy)
        (phaseStep_strobesPaid htransfer (levels_ne_of_legalConfig h.1))⟩)
    (phaseBudget s.cfg) (accept rs b s) ⟨transferring_accept rs b s, .inr (strobesPaid_accept rs b s)⟩
  exact hrun.2.resolve_left fun hfault => hres hfault.1

/-! ## The bytes sent -/

theorem nibbles_join (b : Byte) : (b >>> 4 <<< 4) ||| (b &&& 0x0F#8) = b := by
  refine BitVec.eq_of_getLsbD_eq fun j hj => ?_
  rw [BitVec.getLsbD_or, BitVec.getLsbD_and, nibbleMask_getLsbD hj]
  by_cases hlow : j < 4
  · simp [hlow]
  · have hsame : 4 + (j - 4) = j := by omega
    simp [hlow, hj, hsame]

/-- In the strobes of the poll the engine sends nothing. -/
theorem bytesSent_poll_eight (c : Config) (reads : List Bit) :
    bytesSent .eight (reads.map fun r => pollStrobe c (some r)) = [] := by
  induction reads with
  | nil => rfl
  | cons r rest ih => exact ih

theorem bytesSent_poll_four (c : Config) (reads : List Bit) :
    bytesSent .four (reads.map fun r => [pollStrobe c (some r), pollStrobe c none]).flatten = [] := by
  induction reads with
  | nil => rfl
  | cons r rest ih => exact ih

/-- In the strobes of a request the engine sends its byte, and no other. -/
theorem bytesSent_requestStrobes (c : Config) (rs : Bit) (b : Byte) (reads : List Bit) :
    bytesSent c.busw (requestStrobes c rs b reads) = [(if rs then c.lvlData else c.lvlCmd, b)] := by
  cases hw : c.busw with
  | eight =>
    have hpoll := bytesSent_poll_eight c reads
    simp only [requestStrobes, hw]
    exact congrArg (_ :: ·) hpoll
  | four =>
    have hpoll := bytesSent_poll_four c reads
    simp only [requestStrobes, hw]
    exact congrArg₂ (fun x l => (_, x) :: l) (nibbles_join b) hpoll

/-- Settles O18: a transfer that does not fault pays its strobes phase by phase, and owes none when it is idle again. -/
theorem strobesCarryTheByte : Obligations.StrobesCarryTheByte := by
  intro s t rs b haccepts hexec hres
  obtain ⟨-, -, rfl⟩ := exec_coreInstr_next hexec
  obtain ⟨new, hnew, hstrobes, -, hedges⟩ := coreRequest_strobesPaid haccepts hres
  have hnone : owedStrobes s.cfg rs b (coreRequest rs b s) = [] := by
    simp [owedStrobes, (coreRequest_ends haccepts rs b).1]
  rw [hnone, List.append_nil] at hstrobes
  refine ⟨new, hnew, hstrobes, ?_, fun p hlaunch => (hedges hlaunch.enableIdle).1⟩
  rw [hstrobes, bytesSent_requestStrobes]

end Sys2Proof.Machine
end

section
/-! PROOFS. Decode and encode agree (spec/30_encoding.md R70 to R80): one equivalence per port format says which words
decode to an instruction. The words that do not are the reserved pin words and the front-end strings whose length is not
the one their first bytes give. -/

namespace Sys2Proof

open Sys2Proof.Machine Sys2Proof.Spec

variable {i : Instr}

/-- A word is the field of its upper bits followed by the field of its lower bits. -/
theorem exists_append {m n : Nat} (w : BitVec (m + n)) : ∃ (hi : BitVec m) (lo : BitVec n), w = hi ++ lo :=
  ⟨w.extractLsb' n m, w.extractLsb' 0 n, BitVec.extractLsb'_append_extractLsb'.symm⟩

/-! ## Core port words (R71) -/

theorem decodeCp_append (rs : BitVec 1) (b : Byte) : decodeCp (rs ++ b) = if rs.getLsbD 0 then .wrd b else .wrc b := by
  have hrs : (rs ++ b).getLsbD 8 = rs.getLsbD 0 := BitVec.getLsbD_append
  unfold decodeCp
  rw [hrs, BitVec.setWidth_append_eq_right]

theorem decodeCp_eq_iff {w : BitVec 9} : decodeCp w = i ↔ encode i = .cp w := by
  constructor
  · rintro rfl
    obtain ⟨rs, b, rfl⟩ := exists_append (m := 1) (n := 8) w
    rw [decodeCp_append]
    obtain rfl | rfl := BitVec.eq_zero_or_eq_one rs <;> rfl
  · intro h
    cases i with
    | wrc b | wrd b =>
      cases h
      exact decodeCp_append _ b
    | _ => cases h

/-! ## Pin port words (R72, R78) -/

/-- A pin identifier has one code, and only its code stands for it. -/
theorem PinId.ofCode_eq_some_iff {code : BitVec 4} {id : PinId} : PinId.ofCode code = some id ↔ id.code = code := by
  constructor
  · have hcodes : ∀ code : BitVec 4, (PinId.ofCode code).all (·.code = code) = true := by decide
    intro h
    simpa [h] using hcodes code
  · rintro rfl
    cases id with
    | rs | rw | e => rfl
    | dl i => revert i; decide

theorem PinId.ofCode_eq_none_iff {code : BitVec 4} :
    PinId.ofCode code = none ↔ 3 ≤ code.toNat ∧ code.toNat ≤ 7 := by
  revert code; decide

/-- The instruction that an `op` stands for at a pin. -/
def pinInstr (op : BitVec 2) (id : PinId) : Option Instr :=
  match op.toNat with
  | 0 => some (.clrpin id)
  | 1 => some (.setpin id)
  | 2 => some (.readpin id)
  | _ => none

theorem pinInstr_eq_none_iff {op : BitVec 2} {id : PinId} : pinInstr op id = none ↔ op.toNat = 3 := by
  have hlt := op.isLt
  unfold pinInstr
  split <;> simp_all
  omega

theorem encode_of_pinInstr {op : BitVec 2} {id : PinId} (h : pinInstr op id = some i) :
    encode i = .pp (op ++ id.code) := by
  unfold pinInstr at h
  split at h <;> cases h
  all_goals
    next hop => exact congrArg (Request.pp <| · ++ id.code) (BitVec.eq_of_toNat_eq hop).symm

theorem decodePp_append (op : BitVec 2) (code : BitVec 4) :
    decodePp (op ++ code) = (PinId.ofCode code).bind (pinInstr op) := by
  unfold decodePp
  rw [BitVec.extractLsb'_append_eq_right, BitVec.extractLsb'_append_eq_left]
  cases PinId.ofCode code <;> rfl

theorem decodePp_eq_some_iff {w : BitVec 6} : decodePp w = some i ↔ encode i = .pp w := by
  constructor
  · obtain ⟨op, code, rfl⟩ := exists_append (m := 2) (n := 4) w
    rw [decodePp_append, Option.bind_eq_some_iff]
    rintro ⟨id, hid, hop⟩
    rw [← PinId.ofCode_eq_some_iff.mp hid]
    exact encode_of_pinInstr hop
  · intro h
    cases i with
    | clrpin id | setpin id | readpin id =>
      cases h
      rw [decodePp_append, PinId.ofCode_eq_some_iff.mpr rfl]
      rfl
    | _ => cases h

/-- `op` 11 and the identifiers 0x3 to 0x7 stand for nothing. -/
theorem decodePp_eq_none_iff {w : BitVec 6} :
    decodePp w = none ↔ w.toNat / 16 = 3 ∨ (3 ≤ w.toNat % 16 ∧ w.toNat % 16 ≤ 7) := by
  obtain ⟨op, code, rfl⟩ := exists_append (m := 2) (n := 4) w
  have hcode := code.isLt
  have hword : (op ++ code).toNat = op.toNat * 16 + code.toNat := by
    rw [BitVec.toNat_append, ← Nat.shiftLeft_add_eq_or_of_lt hcode, Nat.shiftLeft_eq]
  have hdiv : (op ++ code).toNat / 16 = op.toNat := by omega
  have hmod : (op ++ code).toNat % 16 = code.toNat := by omega
  rw [decodePp_append, hdiv, hmod, ← PinId.ofCode_eq_none_iff]
  cases PinId.ofCode code with
  | none => simp
  | some id => simp [pinInstr_eq_none_iff]

/-! ## Front-end byte strings (R73 to R75, R79, R80) -/

section FrontEnd

variable {bytes rest text after : List Byte} {n : Nat}

theorem takeBytes_of_le (h : n ≤ bytes.length) : takeBytes n bytes = some (bytes.take n, bytes.drop n) := if_pos h

theorem takeBytes_eq_some_iff :
    takeBytes n bytes = some (text, after) ↔ text.length = n ∧ bytes = text ++ after := by
  constructor
  · intro h
    unfold takeBytes at h
    split at h <;> cases h
    simp [*]
  · rintro ⟨rfl, rfl⟩
    simp [takeBytes]

theorem lenByte_eq_iff {len : Byte} : textFits text = true ∧ lenByte text = len ↔ text.length = len.toNat := by
  rw [textFits, lenByte, ← BitVec.toNat_inj, BitVec.toNat_ofNat, decide_eq_true_eq]
  omega

/-- A string behind its `len` byte is what the decoder takes. -/
theorem takeBytes_lenByte (h : textFits text = true) (rest : List Byte) :
    takeBytes (lenByte text).toNat (text ++ rest) = some (text, rest) :=
  takeBytes_eq_some_iff.mpr ⟨lenByte_eq_iff.mp ⟨h, rfl⟩, rfl⟩

theorem takeBytes_bitmap {bitmap : List Byte} (h : bitmapFits bitmap = true) (rest : List Byte) :
    takeBytes 8 (bitmap ++ rest) = some (bitmap, rest) :=
  takeBytes_eq_some_iff.mpr ⟨beq_iff_eq.mp h, rfl⟩

/-- `WRINT` sends the most significant byte first (R54). -/
theorem encode_wrint (b1 b2 b3 b4 : Byte) : encode (.wrint (b1 ++ b2 ++ b3 ++ b4)) = .fe [0x12, b1, b2, b3, b4] := by
  have h4 : (b1 ++ b2 ++ b3 ++ b4).extractLsb' 0 8 = b4 := BitVec.extractLsb'_append_eq_right
  have h3 : (b1 ++ b2 ++ b3 ++ b4).extractLsb' 8 8 = b3 := by
    rw [BitVec.extractLsb'_append_eq_of_le (by decide)]
    exact BitVec.extractLsb'_append_eq_right
  have h2 : (b1 ++ b2 ++ b3 ++ b4).extractLsb' 16 8 = b2 := by
    rw [BitVec.extractLsb'_append_eq_of_le (by decide), BitVec.extractLsb'_append_eq_of_le (by decide)]
    exact BitVec.extractLsb'_append_eq_right
  have h1 : (b1 ++ b2 ++ b3 ++ b4).extractLsb' 24 8 = b1 := by
    rw [BitVec.extractLsb'_append_eq_of_le (by decide), BitVec.extractLsb'_append_eq_of_le (by decide)]
    exact BitVec.extractLsb'_append_eq_left
  exact congrArg Request.fe (by rw [h1, h2, h3, h4])

/-- A byte string begins with a request exactly when it begins with the encoding of a well-formed instruction (R80). -/
theorem decodeFePrefix_eq_some_iff : decodeFePrefix bytes = some (i, rest) ↔
    i.wellFormed = true ∧ ∃ req, encode i = .fe req ∧ bytes = req ++ rest := by
  constructor
  · fun_cases decodeFePrefix bytes
    case case1 | case6 | case8 | case21 | case24 => nofun
    -- WRSTR and WRSTRAT
    case case5 hop text after htake | case7 hop text after htake =>
      rintro ⟨⟩
      obtain ⟨hlen, rfl⟩ := takeBytes_eq_some_iff.mp htake
      obtain ⟨hfits, rfl⟩ := lenByte_eq_iff.mpr hlen
      exact ⟨hfits, _, rfl, congrArg (List.cons · _) (BitVec.eq_of_toNat_eq hop)⟩
    -- DEFGLYPH
    case case20 hop bitmap after htake =>
      rintro ⟨⟩
      obtain ⟨hlen, rfl⟩ := takeBytes_eq_some_iff.mp htake
      exact ⟨beq_iff_eq.mpr hlen, _, rfl, congrArg (List.cons · _) (BitVec.eq_of_toNat_eq hop)⟩
    -- WRINT
    case case23 hop =>
      rintro ⟨⟩
      exact ⟨rfl, _, encode_wrint .., congrArg (List.cons · _) (BitVec.eq_of_toNat_eq hop)⟩
    -- no operand, or operands of one byte each
    all_goals
      next hop =>
      rintro ⟨⟩
      exact ⟨rfl, _, rfl, congrArg (List.cons · _) (BitVec.eq_of_toNat_eq hop)⟩
  · rintro ⟨hwf, req, henc, rfl⟩
    cases i with
    | wrc | wrd | clrpin | setpin | readpin => cases henc
    | wrstr text | wrstrat line col text =>
      cases henc
      simp [decodeFePrefix, takeBytes_lenByte hwf]
    | defglyph index bitmap =>
      cases henc
      simp [decodeFePrefix, takeBytes_bitmap hwf]
    | wrint v =>
      obtain ⟨v, b4, rfl⟩ := exists_append (m := 24) (n := 8) v
      obtain ⟨v, b3, rfl⟩ := exists_append (m := 16) (n := 8) v
      obtain ⟨b1, b2, rfl⟩ := exists_append (m := 8) (n := 8) v
      cases (encode_wrint ..).symm.trans henc
      rfl
    | _ => cases henc; rfl

/-- Nothing may follow the last byte of a request (R73). -/
theorem decodeFe_eq_some_iff_prefix : decodeFe bytes = some i ↔ decodeFePrefix bytes = some (i, []) := by
  unfold decodeFe
  split
  case h_1 j heq => simp [heq]
  case h_2 hne => simpa using hne i

theorem decodeFe_eq_some_iff : decodeFe bytes = some i ↔ i.wellFormed = true ∧ encode i = .fe bytes := by
  simp [decodeFe_eq_some_iff_prefix, decodeFePrefix_eq_some_iff]

/-! ## The length of a front-end request -/

/-- The first bytes of a request fix its length, whatever follows it (R80). -/
theorem requestLength_append {req : List Byte} (hwf : i.wellFormed = true) (henc : encode i = .fe req)
    (rest : List Byte) : requestLength (req ++ rest) = some req.length := by
  cases i with
  | wrc | wrd | clrpin | setpin | readpin => cases henc
  | wrstr text | wrstrat line col text =>
    cases henc
    have hlen := lenByte_eq_iff.mp ⟨hwf, rfl⟩
    simp +arith [requestLength, hlen]
  | defglyph index bitmap =>
    cases henc
    have hlen : bitmap.length = 8 := beq_iff_eq.mp hwf
    simp [requestLength, hlen]
  | _ => cases henc; rfl

/-- An opcode is known from its value. -/
theorem opcode_eq {op : Byte} {operands : List Byte} {k : Nat}
    (h : (op :: operands).head?.map BitVec.toNat = some k) : op = BitVec.ofNat 8 k := by
  rw [← Option.some.inj h, BitVec.ofNat_toNat, BitVec.setWidth_eq]

/-- A byte string that is long enough for its opcode begins with a request. -/
theorem decodeFePrefix_ne_none (hlen : requestLength bytes = some n) (hle : n ≤ bytes.length) :
    decodeFePrefix bytes ≠ none := by
  cases bytes with
  | nil => cases hlen
  | cons op operands =>
    revert hlen
    fun_cases requestLength (op :: operands) with
    | case1 | case21 => nofun
    -- no operand
    | case2 hop | case7 hop | case8 hop | case9 hop | case10 hop | case12 hop | case13 hop | case14 hop | case15 hop
    | case16 hop | case17 hop =>
      rw [opcode_eq hop]
      nofun
    -- one to four operand bytes
    | case3 hop | case4 hop | case11 hop | case19 hop | case20 hop =>
      rw [opcode_eq hop]
      rintro ⟨⟩
      rcases operands with _ | ⟨_, _ | ⟨_, _ | ⟨_, _ | _⟩⟩⟩ <;> simp [decodeFePrefix] at hle ⊢
    -- WRSTR, WRSTRAT and DEFGLYPH: a string or a bitmap follows
    | case5 hop =>
      rw [opcode_eq hop]
      match operands with
      | [] => nofun
      | len :: rest =>
        rintro ⟨⟩
        have htext : len.toNat ≤ rest.length := by simp only [List.length_cons] at hle; omega
        simp [decodeFePrefix, takeBytes_of_le htext]
    | case6 hop =>
      rw [opcode_eq hop]
      match operands with
      | [] | [_] | [_, _] => nofun
      | _ :: _ :: len :: rest =>
        rintro ⟨⟩
        have htext : len.toNat ≤ rest.length := by simp only [List.length_cons] at hle; omega
        simp [decodeFePrefix, takeBytes_of_le htext]
    | case18 hop =>
      rw [opcode_eq hop]
      rintro ⟨⟩
      match operands with
      | [] => simp at hle
      | _ :: rest =>
        have hbitmap : 8 ≤ rest.length := by simp only [List.length_cons] at hle; omega
        simp [decodeFePrefix, takeBytes_of_le hbitmap]

theorem decodeFe_eq_none_iff : decodeFe bytes = none ↔ requestLength bytes ≠ some bytes.length := by
  refine ⟨fun hnone hlen => ?_, fun hlen => ?_⟩
  · obtain ⟨⟨i, rest⟩, hprefix⟩ := Option.ne_none_iff_exists'.mp (decodeFePrefix_ne_none hlen le_rfl)
    obtain ⟨hwf, req, henc, rfl⟩ := decodeFePrefix_eq_some_iff.mp hprefix
    obtain rfl : rest = [] := by simpa [requestLength_append hwf henc] using hlen
    cases hnone.symm.trans (decodeFe_eq_some_iff_prefix.mpr hprefix)
  · rw [Option.eq_none_iff_forall_ne_some]
    intro i hi
    obtain ⟨hwf, henc⟩ := decodeFe_eq_some_iff.mp hi
    exact hlen (by simpa using requestLength_append hwf henc [])

end FrontEnd

/-! ## Every port -/

/-- Only front-end strings and bitmaps have a length that may not fit. -/
theorem wellFormed_of_encode_ne_fe (h : ∀ bytes, encode i ≠ .fe bytes) : i.wellFormed = true := by
  cases i with
  | wrstr | wrstrat | defglyph => exact absurd rfl (h _)
  | _ => rfl

/-- A word decodes to the well-formed instruction it encodes, and to no other. -/
theorem decode_eq_some_iff {r : Request} : decode r = some i ↔ i.wellFormed = true ∧ encode i = r := by
  cases r with
  | cp w =>
    refine Option.some_inj.trans (decodeCp_eq_iff.trans (iff_and_self.mpr fun h => ?_))
    exact wellFormed_of_encode_ne_fe (by simp [h])
  | pp w =>
    refine decodePp_eq_some_iff.trans (iff_and_self.mpr fun h => ?_)
    exact wellFormed_of_encode_ne_fe (by simp [h])
  | fe bytes => exact decodeFe_eq_some_iff

/-- Settles O5: `decode_eq_some_iff` from right to left. -/
theorem decodeOfEncodeIsIdentity : Obligations.DecodeOfEncodeIsIdentity :=
  fun _ hwf => decode_eq_some_iff.mpr ⟨hwf, rfl⟩

/-- Settles O6: `decode_eq_some_iff` from left to right. -/
theorem encodeOfDecodeIsIdentity : Obligations.EncodeOfDecodeIsIdentity :=
  fun _ _ => decode_eq_some_iff.mp

/-! ## Refusals (R78, R79; log 9, log 12) -/

section Refusals

variable {s : State}

theorem runRequest_undecoded {r : Request} (hp : hostMayPresent s.cfg r = true) (hd : decode r = none) :
    runRequest r s = .refused (refusalOf r) := by
  simp [runRequest, hp, hd]

theorem pinTransaction_not_produced {id : PinId} (hlegal : legalConfig s.cfg = true)
    (hpin : pinProduced s.cfg id = false) (run : State → State) :
    pinTransaction id s run = .refused .reservedPinWord := by
  simp [pinTransaction, onEngine_legal hlegal, hpin]

/-- DL4 to DL7 are not on a 4-bit bus. -/
theorem pinProduced_dl_four {c : Config} {i : Fin 8} (hbus : c.busw = .four) (hi : 4 ≤ i.val) :
    pinProduced c (.dl i) = false := by
  simpa [pinProduced, hbus, busLines] using hi

end Refusals

/-- Settles O8: the string does not decode by `decodeFe_eq_none_iff`, and an idle engine's step runs the request. -/
theorem frontEndRequestLengths : Obligations.FrontEndRequestLengths := by
  refine fun bytes => ⟨decodeFe_eq_none_iff, fun s rest hlegal hidle hhost hlen => ?_⟩
  rw [step_idle_request hlegal hidle hhost]
  exact runRequest_undecoded rfl (decodeFe_eq_none_iff.mpr hlen)

/-- Settles O9: such a word does not decode by `decodePp_eq_none_iff`; DL4 to DL7
decode, and the transaction is refused. -/
theorem reservedPinWordsRefused : Obligations.ReservedPinWordsRefused := by
  refine ⟨fun w => decodePp_eq_none_iff, fun s w rest hlegal hidle hhost hreserved => ?_, ?_⟩
  · rw [step_idle_request hlegal hidle hhost]
    exact runRequest_undecoded rfl (decodePp_eq_none_iff.mpr hreserved)
  · intro s i hlegal hbus hi
    have hrefused := pinTransaction_not_produced hlegal (pinProduced_dl_four hbus hi)
    simp only [exec, execSetpin, execClrpin, execReadpin, hrefused, and_self]

end Sys2Proof
end

section
/-! PROOFS. The pin port (spec/40_bus_framing.md R91 to R94): when a transaction answers `ok`, what a pin word then does
and leaves unchanged, and what it does when the answer is `fail` (spec/40_bus_framing.md R104). -/

namespace Sys2Proof.Machine

open Sys2Proof.Spec

variable {s t : State} {id : PinId} {v : Bit}

/-! ## The answer of a transaction -/

theorem answersOk_eq_true_iff : answersOk s id = true ↔ bound s.cfg id = true ∧ (drawAt s 0).fails = false := by
  simp [answersOk, nextDraw_eq_drawAt]

theorem answersOk_eq_false_iff : answersOk s id = false ↔ bound s.cfg id = false ∨ (drawAt s 0).fails = true := by
  simp [answersOk, nextDraw_eq_drawAt, or_iff_not_imp_left]

theorem pinWrite_of_ok (h : answersOk s id = true) (v : Bit) :
    pinWrite id v s = (true, logEvent (.wrote id v) { popDraw s with lines := setLine s.lines id v }) :=
  if_pos h

theorem pinWrite_of_fail (h : answersOk s id = false) (v : Bit) :
    pinWrite id v s =
      (false, logEvent (.writeFailed id v) { popDraw s with lines := setLine s.lines id (nextDraw s).bit }) :=
  if_neg (by simp [h])

theorem pinRead_of_ok (h : answersOk s id = true) :
    pinRead id s = (some (readLevel s id), logEvent (.readBit id (readLevel s id)) (popDraw s)) :=
  if_pos h

theorem pinRead_of_fail (h : answersOk s id = false) :
    pinRead id s = (none, logEvent (.readFailed id) (popDraw s)) :=
  if_neg (by simp [h])

@[simp] theorem pinRead_lines (id : PinId) (s : State) : (pinRead id s).2.lines = s.lines := by
  rcases pinRead_cases id s with ⟨-, e⟩ | ⟨-, e⟩ <;> simp [e]

@[simp] theorem pinRead_bfs (id : PinId) (s : State) : (pinRead id s).2.bfs = s.bfs := by
  rcases pinRead_cases id s with ⟨-, e⟩ | ⟨-, e⟩ <;> simp [e]

/-- A read delivers the free answer for a released data line, else the level of the line. -/
theorem readLevel_eq (s : State) (id : PinId) : readLevel s id =
    if (∃ i, id = .dl i) ∧ s.doe = false then (drawAt s 0).bit else lineLevel s.lines id := by
  cases id with
  | dl i => cases h : s.doe <;> simp [readLevel, nextDraw_eq_drawAt, h]
  | rs | rw | e => simp [readLevel]

/-! ## A pin word -/

theorem exec_setpin (id : PinId) (s : State) : exec (.setpin id) s =
    pinTransaction id s fun u => pinAnswered (pinWrite id true u).1 (pinWrite id true u).2 := rfl

theorem exec_clrpin (id : PinId) (s : State) : exec (.clrpin id) s =
    pinTransaction id s fun u => pinAnswered (pinWrite id false u).1 (pinWrite id false u).2 := rfl

theorem exec_readpin (id : PinId) (s : State) : exec (.readpin id) s =
    pinTransaction id s fun u => pinAnswered (pinRead id u).1.isSome (pinRead id u).2 := rfl

/-- With no `rst` before it, a pin word the engine can produce is put to the pin abstraction. -/
theorem pinTransaction_run (hlegal : legalConfig s.cfg = true) (hpin : pinProduced s.cfg id = true)
    (hr : s.rstIn = none) (run : State → State) : pinTransaction id s run = .next (run s) := by
  simp [pinTransaction, onEngine_legal hlegal, hpin, cutOff_none hr]

/-- A pin word that gives a next state was put to the pin abstraction, or was cut by `rst` before that. -/
theorem pinTransaction_next {run : State → State} (h : pinTransaction id s run = .next t) : t = s ∨ t = run s := by
  obtain ⟨-, h⟩ := onEngine_next h
  split at h
  · cases h
    split
    · exact .inl rfl
    · exact .inr rfl
  · cases h

theorem pinAnswered_ok (s : State) : pinAnswered true s = s := rfl

/-- A transaction that answered `fail` aborts a pin phase, and outside a pin phase nothing is aborted (log 12). -/
theorem pinAnswered_fail {u : State} (e : Event) (htrace : u.trace = s.trace) (hph : u.ph = s.ph)
    (hres : u.res = s.res) :
    (pinAnswered false (logEvent e u)).trace = s.trace ++ [e] ∧
      if s.ph.isPin then
        (pinAnswered false (logEvent e u)).res = .pinFault ∧ (pinAnswered false (logEvent e u)).ph = .done
      else (pinAnswered false (logEvent e u)).res = s.res ∧ (pinAnswered false (logEvent e u)).ph = s.ph := by
  cases h : s.ph.isPin <;> simp [pinAnswered, h, htrace, hph, hres]

@[simp] theorem pinAnswered_lines (ok : Bool) (s : State) : (pinAnswered ok s).lines = s.lines := by
  unfold pinAnswered
  split <;> rfl

@[simp] theorem pinAnswered_bfs (ok : Bool) (s : State) : (pinAnswered ok s).bfs = s.bfs := by
  unfold pinAnswered
  split <;> rfl

/-- Changing a line after using up an answer leaves the trace. -/
theorem trace_popDraw_lines (s : State) (l : Lines) : State.trace { popDraw s with lines := l } = s.trace :=
  popDraw_trace s

/-- `SETPIN` and `CLRPIN` but for their level. -/
theorem pinWord_write_outcome (hlegal : legalConfig s.cfg = true) (hpin : pinProduced s.cfg id = true)
    (hr : s.rstIn = none) (v : Bit) :
    ∃ t, pinTransaction id s (fun u => pinAnswered (pinWrite id v u).1 (pinWrite id v u).2) = .next t ∧
      (bound s.cfg id = true ∧ (drawAt s 0).fails = false →
        lineLevel t.lines id = v ∧ t.trace = s.trace ++ [.wrote id v] ∧ t.ph = s.ph ∧ t.res = s.res) ∧
      (bound s.cfg id = false ∨ (drawAt s 0).fails = true →
        t.trace = s.trace ++ [.writeFailed id v] ∧
        (if s.ph.isPin then t.res = .pinFault ∧ t.ph = .done else t.res = s.res ∧ t.ph = s.ph)) := by
  refine ⟨_, pinTransaction_run hlegal hpin hr _, fun hok => ?_, fun hfail => ?_⟩
  · rw [pinWrite_of_ok (answersOk_eq_true_iff.mpr hok), pinAnswered_ok, logEvent_trace, trace_popDraw_lines]
    simp [lineLevel_setLine]
  · rw [pinWrite_of_fail (answersOk_eq_false_iff.mpr hfail)]
    exact pinAnswered_fail _ (trace_popDraw_lines s _) (popDraw_ph s) (popDraw_res s)

/-- Settles O25: `SETPIN` is the write of level 1. -/
theorem setpinDrivesHigh : Obligations.SetpinDrivesHigh :=
  fun _ _ => ⟨decode_eq_some_iff.mpr ⟨rfl, rfl⟩, fun hlegal hpin hr => pinWord_write_outcome hlegal hpin hr true⟩

/-- Settles O26: `CLRPIN` is the write of level 0. -/
theorem clrpinDrivesLow : Obligations.ClrpinDrivesLow :=
  fun _ _ => ⟨decode_eq_some_iff.mpr ⟨rfl, rfl⟩, fun hlegal hpin hr => pinWord_write_outcome hlegal hpin hr false⟩

/-- Settles O27: `READPIN` is one read, which changes no line and whose bit `readLevel_eq` gives. -/
theorem readpinReturnsLevel : Obligations.ReadpinReturnsLevel := by
  intro s id hlegal hpin hr
  rw [exec_readpin]
  refine ⟨_, pinTransaction_run hlegal hpin hr _, by simp, by simp, fun hok => ?_, fun hfail => ?_⟩
  · rw [pinRead_of_ok (answersOk_eq_true_iff.mpr hok), Option.isSome_some, pinAnswered_ok, ← readLevel_eq]
    simp
  · rw [pinRead_of_fail (answersOk_eq_false_iff.mpr hfail), Option.isSome_none]
    exact pinAnswered_fail _ (popDraw_trace s) (popDraw_ph s) (popDraw_res s)

/-! ## The frame of a pin word -/

/-- From `s` to `t` at most one transaction with pin `id` has been performed: nothing is written but the lines of
`written`, the history, the pin answers to come, and, if the answer was not `ok`, `PH` and `RES`. -/
def PinWordFrame (id : PinId) (written : List PinId) (s t : State) : Prop :=
  ∃ lines history draws drawn res ph,
    t = { s with lines := lines, history := history, draws := draws, drawn := drawn, res := res, ph := ph } ∧
      (∀ other, other ∉ written → lineLevel lines other = lineLevel s.lines other) ∧
      (answersOk s id = true → ph = s.ph ∧ res = s.res)

theorem PinWordFrame.refl (id : PinId) (written : List PinId) (s : State) : PinWordFrame id written s s :=
  ⟨_, _, _, _, _, _, rfl, fun _ _ => rfl, fun _ => ⟨rfl, rfl⟩⟩

/-- After one transaction and its answer. -/
theorem pinWordFrame_answered {written : List PinId} {l : Lines} (ok : Bool) (e : Event)
    (hlines : ∀ other, other ∉ written → lineLevel l other = lineLevel s.lines other)
    (hok : answersOk s id = ok) :
    PinWordFrame id written s (pinAnswered ok (logEvent e { popDraw s with lines := l })) := by
  obtain ⟨draws, drawn, hpop⟩ := popDraw_eq s
  rw [hpop]
  unfold pinAnswered
  split
  · next hfail => exact ⟨_, _, _, _, _, _, rfl, hlines, fun h => by simp [← hok, h] at hfail⟩
  · exact ⟨_, _, _, _, _, _, rfl, hlines, fun _ => ⟨rfl, rfl⟩⟩

theorem pinWordFrame_write (id : PinId) (v : Bit) (s : State) :
    PinWordFrame id [id] s (pinAnswered (pinWrite id v s).1 (pinWrite id v s).2) := by
  have hlines (v : Bit) (other : PinId) (hother : other ∉ [id]) :
      lineLevel (setLine s.lines id v) other = lineLevel s.lines other :=
    lineLevel_setLine_of_not_mem (List.mem_singleton_self id) hother s.lines v
  rcases pinWrite_cases id v s with ⟨h, e⟩ | ⟨h, e⟩ <;> rw [e] <;> exact pinWordFrame_answered _ _ (hlines _) h

theorem pinWordFrame_read (id : PinId) (s : State) :
    PinWordFrame id [] s (pinAnswered (pinRead id s).1.isSome (pinRead id s).2) := by
  have hlines (other : PinId) (_ : other ∉ ([] : List PinId)) :
      lineLevel (popDraw s).lines other = lineLevel s.lines other := by rw [popDraw_lines]
  rcases pinRead_cases id s with ⟨h, e⟩ | ⟨h, e⟩ <;> rw [e] <;> exact pinWordFrame_answered _ _ hlines h

theorem pinTransaction_frame {written : List PinId} {run : State → State} (h : pinTransaction id s run = .next t)
    (hrun : PinWordFrame id written s (run s)) : PinWordFrame id written s t := by
  rcases pinTransaction_next h with rfl | rfl
  · exact .refl id written t
  · exact hrun

/-- Settles O28: a write may change its own line, a read none (`PinWordFrame`). -/
theorem pinOperationFrame : Obligations.PinOperationFrame := by
  intro s t id i hi h
  have hframe : PinWordFrame id (if i = .readpin id then [] else [id]) s t := by
    rcases hi with rfl | rfl | rfl
    · rw [exec_setpin] at h
      exact pinTransaction_frame h (pinWordFrame_write id true s)
    · rw [exec_clrpin] at h
      exact pinTransaction_frame h (pinWordFrame_write id false s)
    · rw [exec_readpin] at h
      rw [if_pos rfl]
      exact pinTransaction_frame h (pinWordFrame_read id s)
  obtain ⟨lines, history, draws, drawn, res, ph, rfl, hlines, hok⟩ := hframe
  refine ⟨fun other hother => hlines other ?_,
    rfl, rfl, rfl, rfl, rfl, rfl, rfl, rfl, rfl, rfl, rfl, rfl, rfl, rfl, rfl,
    fun hbound hanswer => hok (answersOk_eq_true_iff.mpr ⟨hbound, hanswer⟩)⟩
  split
  · exact List.not_mem_nil
  · next hwrite => simpa [hwrite] using hother

end Sys2Proof.Machine
end

section
/-! PROOFS. Single phases of the framing and of the settle (spec/40_bus_framing.md R96 to R103,
spec/41_transfer_sequencer.md R116 to R124): the waits, and the writes whose transaction answers `ok`. -/

namespace Sys2Proof.Machine

open Sys2Proof.Spec

variable {s : State}

/-- A step in a phase other than `IDLE`, with no `rst` asserted, is that phase. -/
theorem step_of_busy {p : Phase} (h : Busy p s) (hp : p ≠ .idle) : step s = .next (phaseStep s) := by
  obtain ⟨hlegal, hph, hhost⟩ := h
  exact step_busy hlegal (hph ▸ hp) hhost

/-- A writing phase whose transaction answers `ok` goes on. -/
theorem drive_of_ok {id : PinId} (h : answersOk s id = true) (v : Bit) (next : State → State) :
    drive id v next s = next (logEvent (.wrote id v) { popDraw s with lines := setLine s.lines id v }) := by
  unfold drive
  rw [pinWrite_of_ok h]

/-- A writing phase whose transaction answers `fail` aborts with `PinFault`. -/
theorem drive_of_fail {id : PinId} (h : answersOk s id = false) (v : Bit) (next : State → State) :
    drive id v next s = abort .pinFault
      (logEvent (.writeFailed id v) { popDraw s with lines := setLine s.lines id (nextDraw s).bit }) := by
  unfold drive
  rw [pinWrite_of_fail h]

/-- A successful write with the drivers enabled or released first. -/
theorem drive_doe_of_ok {id : PinId} (h : answersOk s id = true) (doe v : Bit) (next : State → State) :
    drive id v next { s with doe := doe } =
      next (logEvent (.wrote id v) { popDraw s with doe := doe, lines := setLine s.lines id v }) := by
  have hok : answersOk { s with doe := doe } id = true := h
  have hpop : popDraw { s with doe := doe } = { popDraw s with doe := doe } := by
    unfold popDraw
    cases s.draws <;> rfl
  rw [drive_of_ok hok, hpop]

/-! ## Waits -/

/-- Settles O33: each of the seven phases is `waitFor` its parameter, then `goto` its successor. -/
theorem waitPhasesOnlyWait : Obligations.WaitPhasesOnlyWait := by
  intro s w p hbusy hrow
  have hne : s.ph ≠ .idle := by
    intro hidle
    simp [waitRow, hidle] at hrow
  rw [step_of_busy hbusy hne]
  unfold phaseStep
  cases hp : s.ph with simp only [waitRow, hp, Option.some.injEq, Prod.mk.injEq, reduceCtorEq] at hrow
  | fSetup | fPw | pSetup | pPw | pHold | pPw2 | pHold2 =>
    obtain ⟨rfl, rfl⟩ := hrow
    exact congrArg (Host.Outcome.next <| goto _ ·) (waitFor_eq _ s)

/-- Settles O30: `F_HOLD` is `waitFor` followed by its two exits. -/
theorem holdLeadsToNibbleOrSettle : Obligations.HoldLeadsToNibbleOrSettle := by
  intro s hbusy
  rw [step_of_busy hbusy nofun]
  obtain ⟨-, hph, -⟩ := hbusy
  unfold phaseStep
  simp only [hph, phaseFHold, waitFor_eq]
  congr 1

/-! ## Writes -/

/-- Settles O34: each of the ten phases is a `drive` of its line that goes on. -/
theorem controlPhasesDriveTheirLine : Obligations.ControlPhasesDriveTheirLine := by
  intro s id v p hbusy hrow hbound hanswer
  have hok := answersOk_eq_true_iff.mpr ⟨hbound, hanswer⟩
  have hne : s.ph ≠ .idle := by
    intro hidle
    simp [controlRow, hidle] at hrow
  rw [step_of_busy hbusy hne]
  obtain ⟨draws, drawn, hpop⟩ := popDraw_eq s
  have hgo (next : State → State) := drive_of_ok hok v next
  have hreleased := drive_doe_of_ok hok false v (goto .pRw)
  rw [hpop] at hgo hreleased ⊢
  unfold phaseStep
  cases hp : s.ph with simp only [controlRow, hp, Option.some.injEq, Prod.mk.injEq, reduceCtorEq] at hrow
  | pRs =>
    obtain ⟨rfl, rfl, rfl⟩ := hrow
    exact congrArg Host.Outcome.next hreleased
  | fRs | fRw | fEhi | fElo | pRw | pEhi | pElo | pEhi2 | pElo2 =>
    obtain ⟨rfl, rfl, rfl⟩ := hrow
    exact congrArg Host.Outcome.next (hgo _)

/-! ## The data lines -/

/-- The bit of a framing on line `i`: of the byte, or of its high or low nibble (spec/20_memory.md R52). -/
theorem framingValue_four_high_getLsbD (b : Byte) (i : Nat) :
    (framingValue .four false b).getLsbD i = b.getLsbD (i + 4) := by
  rw [framingValue_four_high, BitVec.getLsbD_ushiftRight, Nat.add_comm]

theorem framingValue_four_low_getLsbD (b : Byte) {i : Nat} (hi : i < 4) :
    (framingValue .four true b).getLsbD i = b.getLsbD i := by
  rw [framingValue_four_low, BitVec.getLsbD_and, nibbleMask_getLsbD (by omega)]
  simp [hi]

theorem eq_topLine_iff {w : BusWidth} {i : Fin 8} : i = topLine w ↔ i.val + 1 = busLines w := by
  cases w <;> revert i <;> decide

theorem busLines_le_eight (w : BusWidth) : busLines w ≤ 8 := by cases w <;> decide

/-- `F_DATA` on a line, its transaction answered `ok`. -/
theorem phaseFData_of_ok (h : answersOk s (.dl s.di) = true) :
    phaseFData s = afterDataLine
      (logEvent (.wrote (.dl s.di) ((framingValue s.cfg.busw s.nib s.reqByte).getLsbD s.di.val))
        { popDraw s with
          doe := s.doe || s.di == 0,
          lines := setLine s.lines (.dl s.di) ((framingValue s.cfg.busw s.nib s.reqByte).getLsbD s.di.val) }) := by
  have henabled : (if s.di = 0 then { s with doe := true } else s) = { s with doe := s.doe || s.di == 0 } := by
    split
    · next hdi => simp [hdi]
    · next hdi => rw [beq_false_of_ne hdi, Bool.or_false]
  dsimp only [phaseFData]
  rw [henabled]
  exact drive_doe_of_ok h _ _ afterDataLine

/-- Settles O31: by `phaseFData_of_ok`, the bit by the bus width and the nibble. -/
theorem dataPhaseDrivesOneLine : Obligations.DataPhaseDrivesOneLine := by
  intro s hbusy hdi hbound hanswer bit
  have hbit : (framingValue s.cfg.busw s.nib s.reqByte).getLsbD s.di.val = bit := by
    unfold bit
    cases hw : s.cfg.busw with
    | eight => rw [framingValue_eight]
    | four =>
      cases hn : s.nib
      · exact framingValue_four_high_getLsbD _ _
      · exact framingValue_four_low_getLsbD _ (by simpa [hw, busLines] using hdi)
  have hphase := phaseFData_of_ok (answersOk_eq_true_iff.mpr ⟨hbound, hanswer⟩)
  have ⟨_, hph, _⟩ := hbusy
  have hstep : step s = .next (phaseFData s) := by
    rw [step_of_busy hbusy nofun]
    unfold phaseStep
    rw [hph]
  rw [hbit] at hphase
  refine ⟨_, hstep, ?_⟩
  obtain ⟨draws, drawn, hpop⟩ := popDraw_eq s
  rw [hphase, hpop]
  unfold afterDataLine
  split
  · next htop =>
    have hlast : s.di.val + 1 = busLines s.cfg.busw := eq_topLine_iff.mp htop
    exact ⟨trace_of_history_append (new := [⟨_, _, _⟩]) rfl, rfl, rfl, fun _ => ⟨rfl, rfl⟩,
      fun hmore => absurd hlast hmore.ne, rfl, rfl, rfl, rfl, rfl, rfl⟩
  · next hne =>
    have hmore : s.di.val + 1 ≠ busLines s.cfg.busw := fun hlast => hne (eq_topLine_iff.mpr hlast)
    exact ⟨trace_of_history_append (new := [⟨_, _, _⟩]) rfl, rfl, rfl, fun hlast => absurd hlast hmore,
      fun hlt => ⟨hph, Fin.val_add_one_of_lt' (hlt.trans_le (busLines_le_eight s.cfg.busw))⟩,
      rfl, rfl, rfl, rfl, rfl, rfl⟩

end Sys2Proof.Machine
end

section
/-! PROOFS. The trace of a transfer without a read/write line (spec/40_bus_framing.md R106, R107,
spec/41_transfer_sequencer.md R113, R114): the events that each phase of `EMIT` still owes, every one of which its phase
performs when the answers are `ok`, then the fixed delay. -/

namespace Sys2Proof.Machine

open Sys2Proof.Spec

/-! ## The effect of events -/

/-- The lines after an event. A failed write leaves its line at no stated level (spec/40_bus_framing.md R91), so no
lemma speaks of the lines after one. -/
def Event.onLines (l : Lines) : Event → Lines
  | .wrote id v => setLine l id v
  | .writeFailed _ _ | .readBit _ _ | .readFailed _ | .waited _ => l

/-- The lines after a trace without failures. -/
def linesAfter (l : Lines) (tr : List Event) : Lines := tr.foldl Event.onLines l

/-- The parts of the state that `Performs` speaks of: they are no registers of the core. -/
def State.records (s : State) : List Moment × Lines × List PinDraw × Nat × List Status :=
  (s.history, s.lines, s.draws, s.drawn, s.coreResponses)

/-- From `s` to `t` exactly the event `e` has happened. -/
structure Performs (e : Event) (s t : State) : Prop where
  trace : t.trace = s.trace ++ [e]
  lines : t.lines = e.onLines s.lines
  answers : ∀ k, drawAt t k = drawAt s (k + pinOperations [e])
  coreResponses : t.coreResponses = s.coreResponses

variable {s s₀ t u : State} {c : Config} {rs : Bit} {b : Byte} {e : Event} {id : PinId} {v : Bit}
  {all owed : List Event}

/-- Registers do not matter. -/
theorem Performs.congr {s' : State} (h : Performs e s t) (hs : s'.records = s.records)
    (hu : u.records = t.records) : Performs e s' u := by
  simp only [State.records, Prod.mk.injEq] at hs hu
  obtain ⟨hhist, hlines, hdraws, hdrawn, hresp⟩ := hs
  obtain ⟨hhist', hlines', hdraws', hdrawn', hresp'⟩ := hu
  refine ⟨?_, by rw [hlines', hlines, h.lines], fun k => ?_, by rw [hresp', hresp, h.coreResponses]⟩
  · rw [trace_eq_of_history hhist', trace_eq_of_history hhist, h.trace]
  · rw [drawAt_congr hdraws' hdrawn', drawAt_congr hdraws hdrawn, h.answers]

theorem performs_write (id : PinId) (v : Bit) (s : State) :
    Performs (.wrote id v) s (logEvent (.wrote id v) { popDraw s with lines := setLine s.lines id v }) where
  trace := by rw [logEvent_trace, trace_popDraw_lines]
  lines := rfl
  answers := drawAt_popDraw s
  coreResponses := popDraw_coreResponses s

theorem performs_waitFor (w : WaitParam) (s : State) : Performs (.waited w) s (waitFor w s) := by
  rw [waitFor_eq]
  exact ⟨logEvent_trace _ _, rfl, fun _ => rfl, rfl⟩

/-! ## Events owed -/

/-- In `s`, begun in `s₀`, the events `owed` make the trace `all` whole: with them the trace and the lines are those
that `all` gives, and the answers to their transactions will be `ok`. -/
structure Owes (s₀ : State) (all : List Event) (s : State) (owed : List Event) : Prop where
  trace : s.trace ++ owed = s₀.trace ++ all
  lines : linesAfter s.lines owed = linesAfter s₀.lines all
  answers : ∀ k < pinOperations owed, (drawAt s k).fails = false

theorem pinOperations_cons (e : Event) (tr : List Event) :
    pinOperations (e :: tr) = pinOperations tr + pinOperations [e] := by
  simp [pinOperations, List.countP_cons]

/-- The event that is performed is owed no longer. -/
theorem Owes.performed (h : Owes s₀ all s (e :: owed)) (he : Performs e s t) : Owes s₀ all t owed := by
  refine ⟨by rw [he.trace, List.append_assoc]; exact h.trace, by rw [he.lines]; exact h.lines, fun k hk => ?_⟩
  rw [he.answers]
  exact h.answers _ (by rw [pinOperations_cons e owed]; omega)

/-! ## The events of `EMIT` -/

/-- The data lines from `i` to the top one. -/
def linesFrom (w : BusWidth) (i : Fin 8) : List (Fin 8) := (List.finRange 8).filter fun j => i ≤ j ∧ j ≤ topLine w

theorem linesFrom_topLine (w : BusWidth) : linesFrom w (topLine w) = [topLine w] := by cases w <;> decide

theorem linesFrom_of_ne_topLine {w : BusWidth} {i : Fin 8} (h : i.val < busLines w) (hne : i ≠ topLine w) :
    linesFrom w i = i :: linesFrom w (i + 1) := by
  cases w <;> revert i <;> decide

/-- The write of data line `j` in a framing (spec/40_bus_framing.md R98). -/
def dataEvent (c : Config) (b : Byte) (nib : Bit) (j : Fin 8) : Event :=
  .wrote (.dl j) ((framingValue c.busw nib b).getLsbD j.val)

/-- A framing from its data line `i` on (spec/40_bus_framing.md R98 to R103). -/
def framingFrom (c : Config) (b : Byte) (nib : Bit) (i : Fin 8) : List Event :=
  (linesFrom c.busw i).map (dataEvent c b nib) ++ .waited .tAs :: strobeTrace c

/-- The low nibble's framing, owed in the high nibble's (spec/40_bus_framing.md R107). -/
def lowNibbleFraming (c : Config) (b : Byte) (nib : Bit) : List Event :=
  if c.busw = .four ∧ nib = false then framingFrom c b true 0 else []

/-- The phases of `EMIT` (spec/40_bus_framing.md R105). -/
def Phase.inEmit : Phase → Bool
  | .fRs | .fRw | .fData | .fSetup | .fEhi | .fPw | .fElo | .fHold => true
  | .idle | .sDelay | .pRs | .pRw | .pSetup | .pEhi | .pPw | .pRead | .pElo | .pHold | .pEhi2 | .pPw2 | .pElo2
  | .pHold2 | .pTest | .done => false

/-- The events of `EMIT` that a transfer in this phase still owes. -/
def emitToCome (s : State) : List Event :=
  match s.ph with
  | .fRs =>
    .wrote .rs (rsLevel s.cfg s.reqRs) :: (if s.cfg.rwPresent then [.wrote .rw s.cfg.lvlWrite] else []) ++
      framingFrom s.cfg s.reqByte s.nib 0 ++ lowNibbleFraming s.cfg s.reqByte s.nib
  | .fRw =>
    .wrote .rw s.cfg.lvlWrite :: framingFrom s.cfg s.reqByte s.nib s.di ++ lowNibbleFraming s.cfg s.reqByte s.nib
  | .fData => framingFrom s.cfg s.reqByte s.nib s.di ++ lowNibbleFraming s.cfg s.reqByte s.nib
  | .fSetup => .waited .tAs :: strobeTrace s.cfg ++ lowNibbleFraming s.cfg s.reqByte s.nib
  | .fEhi => strobeTrace s.cfg ++ lowNibbleFraming s.cfg s.reqByte s.nib
  | .fPw => .waited .tPw :: .wrote .e s.cfg.lvlEIdle :: .waited .tH :: lowNibbleFraming s.cfg s.reqByte s.nib
  | .fElo => .wrote .e s.cfg.lvlEIdle :: .waited .tH :: lowNibbleFraming s.cfg s.reqByte s.nib
  | .fHold => .waited .tH :: lowNibbleFraming s.cfg s.reqByte s.nib
  | .idle | .sDelay | .pRs | .pRw | .pSetup | .pEhi | .pPw | .pRead | .pElo | .pHold | .pEhi2 | .pPw2 | .pElo2
  | .pHold2 | .pTest | .done => []

theorem framingFrom_topLine {i : Fin 8} (hi : i = topLine c.busw) (b : Byte) (nib : Bit) :
    framingFrom c b nib i = dataEvent c b nib i :: .waited .tAs :: strobeTrace c := by
  rw [hi, framingFrom, linesFrom_topLine]
  rfl

theorem framingFrom_of_ne_topLine {i : Fin 8} (hlt : i.val < busLines c.busw) (hne : i ≠ topLine c.busw) (b : Byte)
    (nib : Bit) : framingFrom c b nib i = dataEvent c b nib i :: framingFrom c b nib (i + 1) := by
  rw [framingFrom, linesFrom_of_ne_topLine hlt hne]
  rfl

theorem framingFrom_eight (hw : c.busw = .eight) (b : Byte) (nib : Bit) : framingFrom c b nib 0 =
    [.wrote (.dl 0) (b.getLsbD 0), .wrote (.dl 1) (b.getLsbD 1), .wrote (.dl 2) (b.getLsbD 2),
      .wrote (.dl 3) (b.getLsbD 3), .wrote (.dl 4) (b.getLsbD 4), .wrote (.dl 5) (b.getLsbD 5),
      .wrote (.dl 6) (b.getLsbD 6), .wrote (.dl 7) (b.getLsbD 7), .waited .tAs] ++ strobeTrace c := by
  have hlines : linesFrom .eight 0 = [0, 1, 2, 3, 4, 5, 6, 7] := by decide
  simp only [framingFrom, dataEvent, hw, hlines, List.map, framingValue_eight]
  rfl

theorem framingFrom_four_high (hw : c.busw = .four) (b : Byte) : framingFrom c b false 0 =
    [.wrote (.dl 0) (b.getLsbD 4), .wrote (.dl 1) (b.getLsbD 5), .wrote (.dl 2) (b.getLsbD 6),
      .wrote (.dl 3) (b.getLsbD 7), .waited .tAs] ++ strobeTrace c := by
  have hlines : linesFrom .four 0 = [0, 1, 2, 3] := by decide
  simp only [framingFrom, dataEvent, hw, hlines, List.map, framingValue_four_high_getLsbD]
  rfl

theorem framingFrom_four_low (hw : c.busw = .four) (b : Byte) : framingFrom c b true 0 =
    [.wrote (.dl 0) (b.getLsbD 0), .wrote (.dl 1) (b.getLsbD 1), .wrote (.dl 2) (b.getLsbD 2),
      .wrote (.dl 3) (b.getLsbD 3), .waited .tAs] ++ strobeTrace c := by
  have hlines : linesFrom .four 0 = [0, 1, 2, 3] := by decide
  simp (disch := decide) only [framingFrom, dataEvent, hw, hlines, List.map, framingValue_four_low_getLsbD]
  rfl

theorem lowNibbleFraming_eight (hw : c.busw = .eight) (b : Byte) (nib : Bit) : lowNibbleFraming c b nib = [] := by
  simp [lowNibbleFraming, hw]

theorem lowNibbleFraming_low (c : Config) (b : Byte) : lowNibbleFraming c b true = [] := by simp [lowNibbleFraming]

theorem lowNibbleFraming_high (hw : c.busw = .four) (b : Byte) :
    lowNibbleFraming c b false = framingFrom c b true 0 := if_pos ⟨hw, rfl⟩

/-- Acceptance owes the whole of `EMIT`. -/
theorem emitToCome_accept (rs : Bit) (b : Byte) (s : State) :
    emitToCome (accept rs b s) = emitTrace s.cfg rs b := by
  have haccept : emitToCome (accept rs b s) =
      [.wrote .rs (rsLevel s.cfg rs)] ++ (if s.cfg.rwPresent then [.wrote .rw s.cfg.lvlWrite] else []) ++
        framingFrom s.cfg b false 0 ++ lowNibbleFraming s.cfg b false := rfl
  rw [haccept]
  unfold emitTrace
  cases hw : s.cfg.busw with
  | eight =>
    rw [framingFrom_eight hw, lowNibbleFraming_eight hw, List.append_nil]
    rfl
  | four =>
    rw [framingFrom_four_high hw, lowNibbleFraming_high hw, framingFrom_four_low hw]
    simp only [List.append_assoc]
    rfl

/-- A write that is owed will be answered `ok`. -/
theorem answersOk_of_owed (hbound : bound s.cfg id = true)
    (hanswers : ∀ k < pinOperations (.wrote id v :: owed), (drawAt s k).fails = false) : answersOk s id = true := by
  refine answersOk_eq_true_iff.mpr ⟨hbound, hanswers 0 ?_⟩
  rw [pinOperations_cons]
  exact Nat.succ_pos _

/-- A phase of `EMIT` that owes `owed` performs the first of these events and leads to a phase that owes the others:
another of `EMIT`, or the settle's first with the drivers enabled. -/
def EmitStep (c : Config) (owed : List Event) (s t : State) : Prop :=
  ∃ e, owed = e :: emitToCome t ∧ Performs e s t ∧
    (t.ph.inEmit = true ∨ (t.ph = (if c.rwPresent then .pRs else .sDelay) ∧ t.doe = true))

theorem emitStep_drive {next : State → State} (hok : answersOk s id = true)
    (hrecords : ∀ u, (next u).records = u.records)
    (hnext : ∀ draws drawn, ∃ u,
      next (logEvent (.wrote id v) { s with lines := setLine s.lines id v, draws := draws, drawn := drawn }) = u ∧
        emitToCome u = owed ∧ u.ph.inEmit = true) :
    EmitStep c (.wrote id v :: owed) s (drive id v next s) := by
  have hwrite := performs_write id v s
  rw [drive_of_ok hok]
  obtain ⟨draws, drawn, hpop⟩ := popDraw_eq s
  rw [hpop] at hwrite ⊢
  obtain ⟨u, hu, rfl, hph⟩ := hnext draws drawn
  exact ⟨_, by rw [hu], hwrite.congr rfl (hrecords _), .inl (hu ▸ hph)⟩

/-- In the strobe of a framing the drivers are enabled. -/
theorem doe_of_onBus {nib : Bit} (h : onBus c s = framingStrobe c rs b nib) : s.doe = true := by
  cases hdoe : s.doe with
  | true => rfl
  | false => simp [onBus, framingStrobe, hdoe] at h

theorem afterDataLine_records (s : State) : (afterDataLine s).records = s.records := by
  unfold afterDataLine
  split <;> rfl

/-- With its answer `ok`, a phase of `EMIT` performs the first event it owes. -/
theorem phaseStep_emit (h : Transferring c rs b s) (hpins : PinsBound c) (hemit : s.ph.inEmit = true)
    (hanswers : ∀ k < pinOperations (emitToCome s), (drawAt s k).fails = false) :
    EmitStep c (emitToCome s) s (phaseStep s) := by
  obtain ⟨⟨rfl, hdi, hrw⟩, rfl, rfl, hbus⟩ := h
  generalize howed : emitToCome s = owed at hanswers ⊢
  unfold phaseStep
  unfold emitToCome at howed
  cases hp : s.ph with
    (simp only [hp] at hrw hemit howed; simp only [busPrepared, hp] at hbus; subst howed; dsimp only)
  | idle | sDelay | pRs | pRw | pSetup | pEhi | pPw | pRead | pElo | pHold | pEhi2 | pPw2 | pElo2 | pHold2 | pTest
  | done => cases hemit
  | fSetup => exact ⟨_, rfl, (performs_waitFor .tAs s).congr rfl rfl, .inl rfl⟩
  | fPw => exact ⟨_, rfl, (performs_waitFor .tPw s).congr rfl rfl, .inl rfl⟩
  | fEhi | fElo =>
    have hok := answersOk_of_owed (hpins _ (e_mem_reqPins s.cfg)) hanswers
    exact emitStep_drive hok (fun _ => rfl) fun _ _ => ⟨_, rfl, rfl, rfl⟩
  | fRw =>
    have hok := answersOk_of_owed (hpins _ (rw_mem_reqPins (hrw rfl))) hanswers
    exact emitStep_drive hok (fun _ => rfl) fun _ _ => ⟨_, rfl, rfl, rfl⟩
  | fRs =>
    have hok := answersOk_of_owed (hpins _ (rs_mem_reqPins s.cfg)) hanswers
    refine emitStep_drive hok (fun _ => rfl) fun _ _ => ⟨_, rfl, ?_⟩
    cases hconn : s.cfg.rwPresent <;> simp [emitToCome, Phase.inEmit, hconn]
  | fHold =>
    have hwait := performs_waitFor .tH s
    dsimp only [phaseFHold]
    split
    · next hfirst =>
      obtain ⟨hw, hnib⟩ : s.cfg.busw = .four ∧ s.nib = false := hfirst
      refine ⟨_, ?_, hwait.congr rfl rfl, .inl rfl⟩
      rw [hnib, lowNibbleFraming_high hw]
      simp [emitToCome, waitFor_eq, lowNibbleFraming_low]
    · next hlast =>
      have hlow : lowNibbleFraming s.cfg s.reqByte s.nib = [] := if_neg hlast
      refine ⟨_, ?_, hwait.congr rfl rfl, .inr ⟨rfl, doe_of_onBus hbus⟩⟩
      rw [hlow]
      cases hconn : s.cfg.rwPresent <;> simp [emitToCome, waitFor_eq, hconn]
  | fData =>
    obtain ⟨-, -, hdoe, -⟩ := hbus
    have hok {v : Bit} {owed : List Event} (hanswers : ∀ k < pinOperations (.wrote (.dl s.di) v :: owed), _) :=
      answersOk_of_owed (hpins _ (dl_mem_reqPins hdi)) hanswers
    have henabled : EmitStep s.cfg (framingFrom s.cfg s.reqByte s.nib s.di ++
        lowNibbleFraming s.cfg s.reqByte s.nib) { s with doe := true } (phaseFData s) := by
      rw [phaseFData_eq hdoe]
      by_cases htop : s.di = topLine s.cfg.busw
      · rw [framingFrom_topLine htop] at hanswers ⊢
        refine emitStep_drive (hok hanswers) afterDataLine_records fun _ _ => ⟨_, if_pos htop, rfl, rfl⟩
      · rw [framingFrom_of_ne_topLine hdi htop] at hanswers ⊢
        refine emitStep_drive (hok hanswers) afterDataLine_records fun _ _ => ⟨_, if_neg htop, ?_, ?_⟩
        · simp [emitToCome, hp]
        · simp [hp, Phase.inEmit]
    obtain ⟨e, howed, hperforms, hnext⟩ := henabled
    exact ⟨e, howed, hperforms.congr rfl rfl, hnext⟩

/-! ## The fixed delay -/

/-- The wait after `EMIT`, owed until `S_DELAY` has performed it (spec/41_transfer_sequencer.md R114). -/
def delayToCome (c : Config) (rs : Bit) (b : Byte) (s : State) : List Event :=
  if s.ph.inTransfer then [.waited (settleWait c rs b)] else []

theorem settleWait_eq (c : Config) (rs : Bit) (b : Byte) :
    settleWait c rs b = if rs = false ∧ b ∈ c.longCmd then .tLong else .tShort := by
  simp [settleWait, longCmd]

theorem requestTrace_fixedDelay (hrw : c.rwPresent = false) (rs : Bit) (b : Byte) (reads : List Bit) :
    requestTrace c rs b reads = emitTrace c rs b ++ [.waited (settleWait c rs b)] := by
  simp [requestTrace, hrw, settleWait_eq]

theorem pinOperations_append (tr tr' : List Event) :
    pinOperations (tr ++ tr') = pinOperations tr + pinOperations tr' := List.countP_append

/-- The number of pin operations of `EMIT` (spec/40_bus_framing.md R109). -/
theorem pinOperations_emitTrace (c : Config) (rs : Bit) (b : Byte) : pinOperations (emitTrace c rs b) = emitOps c := by
  unfold emitTrace emitOps
  cases c.busw <;> cases c.rwPresent <;> rfl

/-- A transfer without a read/write line, begun in `s₀` and not faulted, has come to the phase of `s`. -/
structure FixedDelayRun (s₀ : State) (rs : Bit) (b : Byte) (s : State) : Prop where
  transferring : Transferring s₀.cfg rs b s
  owes : Owes s₀ (requestTrace s₀.cfg rs b []) s (emitToCome s ++ delayToCome s₀.cfg rs b s)
  drivers : s.ph.inEmit = false → s.doe = true
  result : s.ph.inTransfer = false → s.res = .ok
  responses : s.coreResponses = s₀.coreResponses ++ if s.ph = .idle then [.ok] else []

theorem Phase.inTransfer_of_inEmit {p : Phase} (h : p.inEmit = true) : p.inTransfer = true := by
  cases p <;> revert h <;> decide

theorem FixedDelayRun.countToRst (h : FixedDelayRun s₀ rs b s) : FixedDelayRun s₀ rs b (countToRst s) :=
  ⟨h.transferring.countToRst, ⟨h.owes.trace, h.owes.lines, h.owes.answers⟩, h.drivers, h.result, h.responses⟩

/-- A phase of `EMIT` continues the run. -/
theorem FixedDelayRun.emit (h : FixedDelayRun s₀ rs b s) (hrw : s₀.cfg.rwPresent = false) (hpins : PinsBound s₀.cfg)
    (hemit : s.ph.inEmit = true) : FixedDelayRun s₀ rs b (phaseStep s) := by
  obtain ⟨htransfer, howes, -, -, hresp⟩ := h
  obtain ⟨e, howed, hperforms, hnext⟩ := phaseStep_emit htransfer hpins hemit fun k hk =>
    howes.answers k (by rw [pinOperations_append]; omega)
  have hbefore := Phase.inTransfer_of_inEmit hemit
  have hafter : (phaseStep s).ph.inTransfer = true := by
    rcases hnext with hph | ⟨hph, -⟩
    · exact Phase.inTransfer_of_inEmit hph
    · rw [hph, hrw]; rfl
  have hidle {u : State} (hu : u.ph.inTransfer = true) : u.ph ≠ .idle := by
    intro hph
    simp [hph, Phase.inTransfer] at hu
  have hdelay : delayToCome s₀.cfg rs b (phaseStep s) = delayToCome s₀.cfg rs b s := by
    simp only [delayToCome, hbefore, hafter]
  refine ⟨phaseStep_transferring htransfer, ?_, fun hend => ?_, fun hend => ?_, ?_⟩
  · rw [howed] at howes
    rw [hdelay]
    exact howes.performed hperforms
  · rcases hnext with hph | ⟨-, hdoe⟩
    · simp [hph] at hend
    · exact hdoe
  · simp [hafter] at hend
  · rw [hperforms.coreResponses, hresp, if_neg (hidle hbefore), if_neg (hidle hafter)]

/-- Every phase continues the run: after `EMIT` there are only `S_DELAY` and `DONE`. -/
theorem FixedDelayRun.phaseStep (h : FixedDelayRun s₀ rs b s) (hrw : s₀.cfg.rwPresent = false)
    (hpins : PinsBound s₀.cfg) (hbusy : s.ph ≠ .idle) : FixedDelayRun s₀ rs b (phaseStep s) := by
  by_cases hemit : s.ph.inEmit = true
  · exact h.emit hrw hpins hemit
  have htransfer := phaseStep_transferring h.transferring
  obtain ⟨⟨⟨hcfg, -, hneeds⟩, rfl, rfl, -⟩, howes, hdoe, hres, hresp⟩ := h
  have hnorw : s.ph.needsRw ≠ true := fun hn => by simp [hneeds hn] at hrw
  unfold Machine.phaseStep at htransfer ⊢
  cases hp : s.ph with (simp only [hp] at htransfer hemit hnorw hdoe hres hresp ⊢)
  | idle => exact absurd hp hbusy
  | fRs | fRw | fData | fSetup | fEhi | fPw | fElo | fHold => exact absurd rfl hemit
  | pRs | pRw | pSetup | pEhi | pPw | pRead | pElo | pHold | pEhi2 | pPw2 | pElo2 | pHold2 | pTest =>
    exact absurd rfl hnorw
  | sDelay =>
    have howed : emitToCome s ++ delayToCome s₀.cfg s.reqRs s.reqByte s =
        [.waited (settleWait s.cfg s.reqRs s.reqByte)] := by
      simp [emitToCome, delayToCome, hp, hcfg, Phase.inTransfer]
    rw [howed] at howes
    exact ⟨htransfer, howes.performed ((performs_waitFor _ s).congr rfl rfl), hdoe, fun _ => rfl, hresp⟩
  | done =>
    have howed : emitToCome s ++ delayToCome s₀.cfg s.reqRs s.reqByte s = [] := by
      simp [emitToCome, delayToCome, hp, Phase.inTransfer]
    rw [howed] at howes
    refine ⟨htransfer, ⟨howes.trace, howes.lines, howes.answers⟩, hdoe, hres, ?_⟩
    simpa [hres rfl] using hresp

/-! ## The whole transfer -/

/-- Acceptance begins the run. -/
theorem fixedDelayRun_accept (hrw : s.cfg.rwPresent = false) (hok : PinsAnswerOk (emitOps s.cfg) s) (rs : Bit)
    (b : Byte) : FixedDelayRun s rs b (accept rs b s) := by
  have howed : emitToCome (accept rs b s) ++ delayToCome s.cfg rs b (accept rs b s) =
      requestTrace s.cfg rs b [] := by
    rw [emitToCome_accept, requestTrace_fixedDelay hrw]
    rfl
  have hops : pinOperations (requestTrace s.cfg rs b []) = emitOps s.cfg := by
    rw [requestTrace_fixedDelay hrw, pinOperations_append, pinOperations_emitTrace]
    rfl
  obtain ⟨-, hanswers⟩ := hok
  refine ⟨transferring_accept rs b s, ?_, nofun, nofun, (List.append_nil _).symm⟩
  rw [howed]
  exact ⟨rfl, rfl, fun k hk => hanswers k (hops ▸ hk)⟩

theorem coreRequest_fixedDelay (h : Accepts s) (hrw : s.cfg.rwPresent = false)
    (hok : PinsAnswerOk (emitOps s.cfg) s) (rs : Bit) (b : Byte) : FixedDelayRun s rs b (coreRequest rs b s) := by
  rw [coreRequest_of_accepts h]
  exact runPhases_induction (fun _ hbusy hrun => (hrun.phaseStep hrw hok.1 hbusy).countToRst) _ _
    (fixedDelayRun_accept hrw hok rs b)

/-- The lines after the trace of such a transfer (spec/41_transfer_sequencer.md R132). -/
theorem linesAfter_requestTrace (hrw : c.rwPresent = false) (rs : Bit) (b : Byte) {l l' : Lines}
    (h : l' = linesAfter l (requestTrace c rs b [])) :
    l'.rs = rsLevel c rs ∧ l'.rw = l.rw ∧ l'.e = c.lvlEIdle ∧
      ∀ i : Fin 8, l'.dl.getLsbD i.val = if i.val < busLines c.busw then b.getLsbD i.val else l.dl.getLsbD i.val := by
  subst h
  cases hw : c.busw <;> simp only [requestTrace, emitTrace, hw, hrw]
  all_goals
    refine ⟨rfl, rfl, rfl, fun i => ?_⟩
    change lineLevel _ (.dl i) = _
    simp only [linesAfter, strobeTrace, Event.onLines, lineLevel_setLine, List.foldl, List.cons_append,
      List.nil_append, reduceCtorEq, if_false, Bool.false_eq_true]
    revert i
    simp [Fin.forall_fin_succ, busLines, lineLevel]

/-- Settles O14: every phase continues `FixedDelayRun`, which owes nothing when the engine is idle again. -/
theorem fixedDelayTransfer : Obligations.FixedDelayTransfer := by
  intro s rs b haccepts hrw hok
  obtain ⟨⟨-, hrs, hb, -⟩, howes, hdoe, hres, hresp⟩ := coreRequest_fixedDelay haccepts hrw hok rs b
  have hidle := (coreRequest_ends haccepts rs b).1
  have hnone : emitToCome (coreRequest rs b s) ++ delayToCome s.cfg rs b (coreRequest rs b s) = [] := by
    simp [emitToCome, delayToCome, hidle, Phase.inTransfer]
  rw [hnone] at howes
  obtain ⟨htrace, hlines, -⟩ := howes
  obtain ⟨hlrs, hlrw, hle, hldl⟩ := linesAfter_requestTrace hrw rs b hlines
  rw [hidle] at hdoe hres hresp
  exact ⟨_, exec_coreInstr_of_accepts haccepts rs b, (List.append_nil _).symm.trans htrace, hidle, hres rfl, hresp,
    hdoe rfl, hrs, hb, hlrs, hlrw, hle, hldl⟩

end Sys2Proof.Machine
end

section
/-! PROOFS. No transfer depends on what earlier requests or reset left (spec/40_bus_framing.md R108): two engines that
meet the same pin answers run the same phases, with the same events, and agree on every line they have written. -/

namespace Sys2Proof.Machine

open Sys2Proof.Spec

variable {s s₁ s₂ t₁ t₂ u₁ u₂ : State} {id : PinId} {v : Bit} {c : Config} {rs : Bit} {b : Byte}

/-! ## What two engines share -/

/-- Phases between the sampling of the busy flag and its test (spec/41_transfer_sequencer.md R121 to R125). -/
def Phase.flagSampled : Phase → Bool
  | .pElo | .pHold | .pEhi2 | .pPw2 | .pElo2 | .pHold2 | .pTest => true
  | .idle | .fRs | .fRw | .fData | .fSetup | .fEhi | .fPw | .fElo | .fHold | .sDelay | .pRs | .pRw | .pSetup
  | .pEhi | .pPw | .pRead | .done => false

/-- Two engines in the same phase of the same transfer, with the same answers to come. `BFS` is the same once it has
been sampled, `RES` once the transfer has ended; `DOE`, `TMR` and the lines may differ. -/
structure SameCourse (s₁ s₂ : State) : Prop where
  cfg : s₁.cfg = s₂.cfg
  ph : s₁.ph = s₂.ph
  di : s₁.di = s₂.di
  nib : s₁.nib = s₂.nib
  pcnt : s₁.pcnt = s₂.pcnt
  draws : s₁.draws = s₂.draws
  drawn : s₁.drawn = s₂.drawn
  bfs : s₁.ph.flagSampled = true → s₁.bfs = s₂.bfs
  res : s₁.ph.inTransfer = false → s₁.res = s₂.res

/-- From `s₁` to `t₁` and from `s₂` to `t₂` the same events have happened; a line is at the same level after them if it
was before them, or if one of them wrote it. -/
def SameEffect (s₁ s₂ t₁ t₂ : State) : Prop :=
  ∃ new, t₁.trace = s₁.trace ++ new ∧ t₂.trace = s₂.trace ++ new ∧
    ∀ id, lineLevel s₁.lines id = lineLevel s₂.lines id ∨ (∃ v, .wrote id v ∈ new) →
      lineLevel t₁.lines id = lineLevel t₂.lines id

theorem SameEffect.refl (s₁ s₂ : State) : SameEffect s₁ s₂ s₁ s₂ :=
  ⟨[], by simp, by simp, by simp⟩

theorem SameEffect.trans (hst : SameEffect s₁ s₂ t₁ t₂) (htu : SameEffect t₁ t₂ u₁ u₂) :
    SameEffect s₁ s₂ u₁ u₂ := by
  obtain ⟨new, h₁, h₂, hlines⟩ := hst
  obtain ⟨new', h₁', h₂', hlines'⟩ := htu
  refine ⟨new ++ new', by simp [h₁', h₁], by simp [h₂', h₂], fun id hid => hlines' id ?_⟩
  rcases hid with hsame | ⟨v, hv⟩
  · exact .inl (hlines id (.inl hsame))
  · rcases List.mem_append.mp hv with hnew | hnew'
    · exact .inl (hlines id (.inr ⟨v, hnew⟩))
    · exact .inr ⟨v, hnew'⟩

/-- Both engines have performed a phase. -/
def SamePhase (s₁ s₂ t₁ t₂ : State) : Prop := SameCourse t₁ t₂ ∧ SameEffect s₁ s₂ t₁ t₂

/-! ## Operations -/

theorem SameCourse.nextDraw (h : SameCourse s₁ s₂) : nextDraw s₁ = nextDraw s₂ := by
  rw [nextDraw_eq_drawAt, nextDraw_eq_drawAt, drawAt_congr h.draws h.drawn]

theorem SameCourse.answersOk (h : SameCourse s₁ s₂) (id : PinId) : answersOk s₁ id = answersOk s₂ id := by
  unfold Machine.answersOk
  rw [h.cfg, h.nextDraw]

theorem popDraw_draws (s : State) : (popDraw s).draws = s.draws.tail := by
  unfold popDraw
  split <;> simp_all

theorem popDraw_drawn (s : State) : (popDraw s).drawn = if s.draws = [] then s.drawn + 1 else s.drawn := by
  unfold popDraw
  split <;> simp_all

/-- One transaction, whatever it leaves on the lines. -/
theorem SameCourse.transaction (h : SameCourse s₁ s₂) (e : Event) (l₁ l₂ : Lines) :
    SameCourse (logEvent e { popDraw s₁ with lines := l₁ }) (logEvent e { popDraw s₂ with lines := l₂ }) where
  cfg := by simpa using h.cfg
  ph := by simpa using h.ph
  di := by simpa using h.di
  nib := by simpa using h.nib
  pcnt := by simpa using h.pcnt
  draws := by simp [popDraw_draws, h.draws]
  drawn := by simp [popDraw_drawn, h.draws, h.drawn]
  bfs := by simpa using h.bfs
  res := by simpa using h.res

/-- `PH` to a phase in which `BFS` and `RES`, where that phase shares them, are the same. -/
theorem SameCourse.goto (h : SameCourse s₁ s₂) {p₁ p₂ : Phase} (hp : p₁ = p₂)
    (hbfs : p₁.flagSampled = true → s₁.bfs = s₂.bfs) (hres : p₁.inTransfer = false → s₁.res = s₂.res) :
    SameCourse (goto p₁ s₁) (goto p₂ s₂) :=
  ⟨h.cfg, hp, h.di, h.nib, h.pcnt, h.draws, h.drawn, hbfs, hres⟩

/-- Both transfers end with a status. -/
theorem SameCourse.done (h : SameCourse s₁ s₂) (e : Status) : SameCourse (abort e s₁) (abort e s₂) :=
  ⟨h.cfg, rfl, h.di, h.nib, h.pcnt, h.draws, h.drawn, nofun, fun _ => rfl⟩

theorem sameEffect_write {e : Event} (he : e.pin = some id) (v : Bit) (s₁ s₂ : State) :
    SameEffect s₁ s₂ (logEvent e { popDraw s₁ with lines := setLine s₁.lines id v })
      (logEvent e { popDraw s₂ with lines := setLine s₂.lines id v }) := by
  refine ⟨[e], by rw [logEvent_trace, trace_popDraw_lines], by rw [logEvent_trace, trace_popDraw_lines], ?_⟩
  intro other hother
  simp only [logEvent_lines, lineLevel_setLine]
  split
  · rfl
  · next hne =>
    refine hother.resolve_right fun ⟨v', hwrote⟩ => hne ?_
    rw [← List.mem_singleton.mp hwrote] at he
    exact (Option.some.inj he).symm

/-- A wait or a read changes no line. -/
theorem sameEffect_logEvent {e : Event} (he : ∀ id v, e ≠ .wrote id v) (h₁ : t₁.trace = s₁.trace)
    (h₂ : t₂.trace = s₂.trace) (hl₁ : t₁.lines = s₁.lines) (hl₂ : t₂.lines = s₂.lines) :
    SameEffect s₁ s₂ (logEvent e t₁) (logEvent e t₂) := by
  refine ⟨[e], by rw [logEvent_trace, h₁], by rw [logEvent_trace, h₂], fun id hid => ?_⟩
  rw [logEvent_lines, logEvent_lines, hl₁, hl₂]
  exact hid.resolve_right fun ⟨v, hwrote⟩ => he id v (List.mem_singleton.mp hwrote).symm

/-- Writing registers adds nothing to the effect. -/
theorem SameEffect.records (h : SameEffect s₁ s₂ t₁ t₂) (h₁ : u₁.records = t₁.records)
    (h₂ : u₂.records = t₂.records) : SameEffect s₁ s₂ u₁ u₂ := by
  simp only [State.records, Prod.mk.injEq] at h₁ h₂
  obtain ⟨new, ht₁, ht₂, hlines⟩ := h
  obtain ⟨hhist₁, hlines₁, -⟩ := h₁
  obtain ⟨hhist₂, hlines₂, -⟩ := h₂
  refine ⟨new, (trace_eq_of_history hhist₁).trans ht₁, (trace_eq_of_history hhist₂).trans ht₂, ?_⟩
  rw [hlines₁, hlines₂]
  exact hlines

theorem samePhase_drive {id₁ id₂ : PinId} {v₁ v₂ : Bit} {next : State → State} (h : SameCourse s₁ s₂)
    (hid : id₁ = id₂) (hv : v₁ = v₂) (hrecords : ∀ u, (next u).records = u.records)
    (hnext : ∀ u₁ u₂, SameCourse u₁ u₂ → u₁.ph = s₁.ph → SameCourse (next u₁) (next u₂)) :
    SamePhase s₁ s₂ (drive id₁ v₁ next s₁) (drive id₂ v₂ next s₂) := by
  subst hid hv
  have hsame := h.answersOk id₁
  cases hok : answersOk s₁ id₁ with
  | true =>
    rw [drive_of_ok hok, drive_of_ok (hsame ▸ hok)]
    exact ⟨hnext _ _ (h.transaction _ _ _) (popDraw_ph s₁),
      (sameEffect_write rfl v₁ s₁ s₂).records (hrecords _) (hrecords _)⟩
  | false =>
    rw [drive_of_fail hok, drive_of_fail (hsame ▸ hok), h.nextDraw]
    exact ⟨(h.transaction _ _ _).done _, (sameEffect_write rfl (nextDraw s₂).bit s₁ s₂).records rfl rfl⟩

theorem samePhase_waitFor (h : SameCourse s₁ s₂) {w₁ w₂ : WaitParam} (hw : w₁ = w₂) :
    SamePhase s₁ s₂ (waitFor w₁ s₁) (waitFor w₂ s₂) := by
  subst hw
  rw [waitFor_eq, waitFor_eq]
  exact ⟨⟨h.cfg, h.ph, h.di, h.nib, h.pcnt, h.draws, h.drawn, h.bfs, h.res⟩,
    sameEffect_logEvent nofun rfl rfl rfl rfl⟩

/-- A wait phase with one exit. -/
theorem samePhase_waitThen (h : SameCourse s₁ s₂) (w : WaitParam) {p₁ p₂ : Phase} (hp : p₁ = p₂)
    (hbfs : p₁.flagSampled = true → s₁.bfs = s₂.bfs) (hin : p₁.inTransfer = true) :
    SamePhase s₁ s₂ (goto p₁ (waitFor w s₁)) (goto p₂ (waitFor w s₂)) := by
  obtain ⟨hcourse, heffect⟩ := samePhase_waitFor h (rfl : w = w)
  exact ⟨hcourse.goto hp hbfs (by simp [hin]), heffect.records rfl rfl⟩

/-- In the strobes of the poll the drivers are released. -/
theorem doe_of_pollStrobe {flag : Option Bit} (h : onBus c s = pollStrobe c flag) : s.doe = false := by
  cases hdoe : s.doe with
  | true => simp [onBus, pollStrobe, hdoe] at h
  | false => rfl

/-- The busy flag of a released bus is the answer of the transaction, whatever is on the lines. -/
theorem samePhase_phasePRead (h : SameCourse s₁ s₂) (h₁ : s₁.doe = false) (h₂ : s₂.doe = false) :
    SamePhase s₁ s₂ (phasePRead s₁) (phasePRead s₂) := by
  have hread : readLevel s₁ (.dl (topLine s₂.cfg.busw)) = readLevel s₂ (.dl (topLine s₂.cfg.busw)) := by
    simp [readLevel, h₁, h₂, h.nextDraw]
  have hsame := h.answersOk (.dl (topLine s₂.cfg.busw))
  have heffect (e : Event) (he : ∀ id v, e ≠ .wrote id v) :
      SameEffect s₁ s₂ (logEvent e (popDraw s₁)) (logEvent e (popDraw s₂)) :=
    sameEffect_logEvent he (popDraw_trace s₁) (popDraw_trace s₂) (popDraw_lines s₁) (popDraw_lines s₂)
  have hcourse (e : Event) : SameCourse (logEvent e (popDraw s₁)) (logEvent e (popDraw s₂)) :=
    h.transaction e (popDraw s₁).lines (popDraw s₂).lines
  unfold phasePRead sample
  rw [h.cfg]
  cases hok : answersOk s₁ (.dl (topLine s₂.cfg.busw)) with
  | true =>
    rw [pinRead_of_ok hok, pinRead_of_ok (hsame ▸ hok), hread]
    obtain ⟨hcfg, -, hdi, hnib, hpcnt, hdraws, hdrawn, -, -⟩ := hcourse
      (.readBit (.dl (topLine s₂.cfg.busw)) (readLevel s₂ (.dl (topLine s₂.cfg.busw))))
    exact ⟨⟨hcfg, rfl, hdi, hnib, hpcnt, hdraws, hdrawn, fun _ => rfl, nofun⟩,
      (heffect (.readBit _ _) nofun).records rfl rfl⟩
  | false =>
    rw [pinRead_of_fail hok, pinRead_of_fail (hsame ▸ hok)]
    exact ⟨(hcourse _).done _, (heffect (.readFailed _) nofun).records rfl rfl⟩

/-! ## Phases -/

theorem SameCourse.afterDataLine (h : SameCourse s₁ s₂) :
    SameCourse (afterDataLine s₁) (afterDataLine s₂) := by
  unfold Machine.afterDataLine
  rw [← h.cfg, ← h.di]
  split
  · exact h.goto rfl nofun nofun
  · exact ⟨rfl, h.ph, rfl, h.nib, h.pcnt, h.draws, h.drawn, h.bfs, h.res⟩

theorem samePhase_ite {p₁ p₂ : Prop} [Decidable p₁] [Decidable p₂] (hp : p₁ ↔ p₂) (ht : SamePhase s₁ s₂ t₁ t₂)
    (hu : SamePhase s₁ s₂ u₁ u₂) : SamePhase s₁ s₂ (if p₁ then t₁ else u₁) (if p₂ then t₂ else u₂) := by
  by_cases h : p₁
  · rwa [if_pos h, if_pos (hp.mp h)]
  · rwa [if_neg h, if_neg (mt hp.mpr h)]

/-- Both engines perform the phase, with the same events. -/
theorem phaseStep_samePhase (h₁ : Transferring c rs b s₁) (h₂ : Transferring c rs b s₂) (h : SameCourse s₁ s₂) :
    SamePhase s₁ s₂ (phaseStep s₁) (phaseStep s₂) := by
  obtain ⟨-, hrs₁, hb₁, hbus₁⟩ := h₁
  obtain ⟨-, hrs₂, hb₂, hbus₂⟩ := h₂
  have ⟨hcfg, hp₂, hdi, hnib, hpcnt, hdraws, hdrawn, hbfs, hres⟩ := h
  have hrs : s₁.reqRs = s₂.reqRs := hrs₁.trans hrs₂.symm
  have hb : s₁.reqByte = s₂.reqByte := hb₁.trans hb₂.symm
  have hwithDoe (doe : Bit) : SameCourse { s₁ with doe := doe } { s₂ with doe := doe } :=
    ⟨hcfg, hp₂, hdi, hnib, hpcnt, hdraws, hdrawn, hbfs, hres⟩
  unfold phaseStep
  cases hp : s₁.ph with
    (rw [hp] at hp₂ hbfs hres
     rw [← hp₂]
     simp only [busPrepared, hp] at hbus₁
     simp only [busPrepared, ← hp₂] at hbus₂
     dsimp only)
  | idle => exact ⟨h, .refl s₁ s₂⟩
  | done => exact ⟨⟨hcfg, rfl, hdi, hnib, hpcnt, hdraws, hdrawn, nofun, fun _ => hres rfl⟩, .refl s₁ s₂⟩
  | fRs =>
    refine samePhase_drive h rfl (by rw [hcfg, hrs]) (fun _ => rfl) fun u₁ u₂ hu _ => ?_
    have hzero : SameCourse { u₁ with di := 0 } { u₂ with di := 0 } :=
      ⟨hu.cfg, hu.ph, rfl, hu.nib, hu.pcnt, hu.draws, hu.drawn, hu.bfs, hu.res⟩
    exact hzero.goto (by rw [hu.cfg]) (by split <;> nofun) (by split <;> nofun)
  | fRw | fEhi | fElo | pRw | pEhi =>
    exact samePhase_drive h rfl (by rw [hcfg]) (fun _ => rfl) fun _ _ hu _ => hu.goto rfl nofun nofun
  | pRs =>
    exact samePhase_drive (hwithDoe false) rfl (by rw [hcfg]) (fun _ => rfl) fun _ _ hu _ => hu.goto rfl nofun nofun
  | pElo | pEhi2 | pElo2 =>
    refine samePhase_drive h rfl (by rw [hcfg]) (fun _ => rfl) fun u₁ u₂ hu hph => ?_
    exact hu.goto rfl (fun _ => hu.bfs (by rw [hph, hp]; rfl)) nofun
  | fData =>
    obtain ⟨-, -, hdoe₁, -⟩ := hbus₁
    obtain ⟨-, -, hdoe₂, -⟩ := hbus₂
    rw [phaseFData_eq hdoe₁, phaseFData_eq hdoe₂]
    exact samePhase_drive (hwithDoe true) (by rw [hdi]) (by rw [hcfg, hnib, hb, hdi]) afterDataLine_records
      fun _ _ hu _ => hu.afterDataLine
  | fSetup | fPw | pSetup | pPw => exact samePhase_waitThen h _ rfl nofun rfl
  | pPw2 | pHold2 => exact samePhase_waitThen h _ rfl (fun _ => hbfs rfl) rfl
  | pHold => exact samePhase_waitThen h .tH (by rw [hcfg]) (fun _ => hbfs rfl) (by split <;> rfl)
  | fHold =>
    obtain ⟨hcourse, heffect⟩ := samePhase_waitFor h (rfl : WaitParam.tH = .tH)
    refine samePhase_ite (by simp [waitFor_eq, hcfg, hnib]) ⟨?_, heffect.records rfl rfl⟩ ⟨?_, heffect.records rfl rfl⟩
    · exact ⟨hcfg, rfl, rfl, rfl, hpcnt, hdraws, hdrawn, nofun, nofun⟩
    · exact hcourse.goto (by rw [hcourse.cfg]) (by split <;> nofun) (by split <;> nofun)
  | sDelay =>
    obtain ⟨hcourse, heffect⟩ := samePhase_waitFor h (congr (congrArg₂ settleWait hcfg hrs) hb)
    exact ⟨hcourse.done .ok, heffect.records rfl rfl⟩
  | pRead => exact samePhase_phasePRead h (doe_of_pollStrobe hbus₁) (doe_of_pollStrobe hbus₂)
  | pTest =>
    have hcounted : SameCourse { s₁ with pcnt := s₁.pcnt + 1 } { s₂ with pcnt := s₂.pcnt + 1 } :=
      ⟨hcfg, h.ph, hdi, hnib, congrArg (· + 1) hpcnt, hdraws, hdrawn, h.bfs, h.res⟩
    refine samePhase_ite (by rw [hcfg, hbfs rfl]) ⟨hcounted.done .ok, .refl s₁ s₂⟩
      (samePhase_ite (by rw [hcfg, hpcnt]) ⟨hcounted.done .hardwareTimeout, .refl s₁ s₂⟩ ⟨?_, .refl s₁ s₂⟩)
    exact hcounted.goto rfl nofun nofun

/-! ## The whole transfer -/

/-- What phases of two engines that are busy together keep holds when both are idle again. -/
theorem runPhases_induction₂ {P : State → State → Prop} (hph : ∀ u₁ u₂, P u₁ u₂ → u₁.ph = u₂.ph)
    (hphase : ∀ u₁ u₂, P u₁ u₂ → P (phaseStep u₁) (phaseStep u₂)) (fuel : Nat) (h : P s₁ s₂)
    (hr₁ : s₁.rstIn = none) (hr₂ : s₂.rstIn = none) : P (runPhases fuel s₁) (runPhases fuel s₂) := by
  induction fuel generalizing s₁ s₂ with
  | zero => exact h
  | succ fuel ih =>
    by_cases hidle : s₁.ph = .idle
    · rwa [runPhases_idle hidle, runPhases_idle ((hph _ _ h).symm.trans hidle)]
    · have hr₁' := (phaseStep_coreFrame s₁).rstIn_none hr₁
      have hr₂' := (phaseStep_coreFrame s₂).rstIn_none hr₂
      rw [runPhases_busy hidle hr₁, runPhases_busy (hph _ _ h ▸ hidle) hr₂, countToRst_none hr₁', countToRst_none hr₂']
      exact ih (hphase _ _ h) hr₁' hr₂'

/-- A core request on two accepting engines of one configuration with the same answers to come. -/
theorem coreRequest_samePhase (h₁ : Accepts s₁) (h₂ : Accepts s₂) (hcfg : s₁.cfg = s₂.cfg)
    (hdraws : s₁.draws = s₂.draws) (hdrawn : s₁.drawn = s₂.drawn) (rs : Bit) (b : Byte) :
    SamePhase s₁ s₂ (coreRequest rs b s₁) (coreRequest rs b s₂) := by
  have ⟨_, _, hr₁⟩ := h₁
  have ⟨_, _, hr₂⟩ := h₂
  have hrun := runPhases_induction₂ (s₁ := accept rs b s₁) (s₂ := accept rs b s₂)
    (P := fun u₁ u₂ => Transferring s₁.cfg rs b u₁ ∧ Transferring s₁.cfg rs b u₂ ∧ SamePhase s₁ s₂ u₁ u₂)
    (fun _ _ ⟨_, _, hsame⟩ => hsame.1.ph)
    (fun _ _ ⟨ht₁, ht₂, hcourse, heffect⟩ =>
      have ⟨hcourse', heffect'⟩ := phaseStep_samePhase ht₁ ht₂ hcourse
      ⟨phaseStep_transferring ht₁, phaseStep_transferring ht₂, hcourse', heffect.trans heffect'⟩)
    (phaseBudget s₁.cfg)
    ⟨transferring_accept rs b s₁, hcfg ▸ transferring_accept rs b s₂,
      ⟨hcfg, rfl, rfl, rfl, rfl, hdraws, hdrawn, nofun, nofun⟩, .refl s₁ s₂⟩
    hr₁ hr₂
  rw [coreRequest_of_accepts h₁, coreRequest_of_accepts h₂, ← hcfg]
  obtain ⟨-, -, hsame⟩ := hrun
  exact hsame

/-- Settles O22: the two engines run the same course to its end, with the same effect. -/
theorem transferIgnoresHistory : Obligations.TransferIgnoresHistory := by
  intro s₁ s₂ t₁ rs b h₁ h₂ hcfg hdraws hdrawn hexec
  obtain ⟨-, -, rfl⟩ := exec_coreInstr_next hexec
  obtain ⟨hcourse, new, htrace₁, htrace₂, hlines⟩ := coreRequest_samePhase h₁ h₂ hcfg hdraws hdrawn rs b
  have hended : (coreRequest rs b s₁).ph.inTransfer = false := by rw [(coreRequest_ends h₁ rs b).1]; rfl
  refine ⟨_, new, exec_coreInstr_of_accepts h₂ rs b, htrace₁, htrace₂, hcourse.res hended, hcourse.pcnt, hcourse.di,
    hcourse.nib, hcourse.draws, hcourse.drawn, ?_⟩
  rintro e he id v rfl
  exact hlines id (.inr ⟨v, he⟩)

end Sys2Proof.Machine
end

section
/-! PROOFS. Single phases of the settle (spec/41_transfer_sequencer.md R114, R121, R125,
R126): the fixed delay, one read of the busy flag, its test, and the response. -/

namespace Sys2Proof.Machine

open Sys2Proof.Spec

variable {s : State}

/-- A sampling phase whose transaction answers `ok` goes on with the bit. -/
theorem sample_of_ok {id : PinId} (h : answersOk s id = true) (next : Bit → State → State) :
    sample id next s = next (readLevel s id) (logEvent (.readBit id (readLevel s id)) (popDraw s)) := by
  unfold sample
  rw [pinRead_of_ok h]

/-- A sampling phase whose transaction answers `fail` aborts with `PinFault`. -/
theorem sample_of_fail {id : PinId} (h : answersOk s id = false) (next : Bit → State → State) :
    sample id next s = abort .pinFault (logEvent (.readFailed id) (popDraw s)) := by
  unfold sample
  rw [pinRead_of_fail h]

/-- A read of a released data line delivers what the controller drives (spec/40_bus_framing.md R93). -/
theorem readLevel_of_released (h : s.doe = false) (i : Fin 8) : readLevel s (.dl i) = (drawAt s 0).bit := by
  simp [readLevel_eq, h]

/-- `P_READ` on released lines, its transaction answered `ok`. -/
theorem phasePRead_of_ok (hdoe : s.doe = false) (hok : answersOk s (.dl (topLine s.cfg.busw)) = true) :
    phasePRead s = logEvent (.readBit (.dl (topLine s.cfg.busw)) (drawAt s 0).bit)
      { popDraw s with bfs := (drawAt s 0).bit, ph := .pElo } := by
  unfold phasePRead
  rw [sample_of_ok hok, readLevel_of_released hdoe]
  rfl

/-- The three outcomes of `P_TEST`, the not-busy test first. -/
theorem phasePTest_eq (s : State) : phasePTest s =
    if s.bfs ≠ s.cfg.busy then { s with pcnt := s.pcnt + 1, res := .ok, ph := .done }
    else if s.pcnt + 1 = s.cfg.pollMax then { s with pcnt := s.pcnt + 1, res := .hardwareTimeout, ph := .done }
    else { s with pcnt := s.pcnt + 1, ph := .pEhi } := by
  have htest : (!stillBusy s.cfg s.bfs) = true ↔ s.bfs ≠ s.cfg.busy := by simp [stillBusy]
  dsimp only [phasePTest]
  simp only [htest]
  rfl

/-- `S_DELAY` is one wait, and the status `OK`. -/
theorem phaseSDelay_eq (s : State) : phaseSDelay s =
    logEvent (.waited (settleWait s.cfg s.reqRs s.reqByte)) { s with tmr := 0, res := .ok, ph := .done } := by
  unfold phaseSDelay
  rw [waitFor_eq]
  rfl

/-- Settles O29: the step is `phasePTest`. -/
theorem pollTestOutcomes : Obligations.PollTestOutcomes := by
  intro s hbusy
  have ⟨_, hph, _⟩ := hbusy
  rw [step_of_busy hbusy nofun, ← phasePTest_eq, phaseStep, hph]

/-- Settles O32: the step is `phaseSDelay`, whose wait `settleWait` chooses. -/
theorem fixedDelayPhase : Obligations.FixedDelayPhase := by
  intro s hbusy
  have ⟨_, hph, _⟩ := hbusy
  rw [step_of_busy hbusy nofun, ← settleWait_eq, ← phaseSDelay_eq, phaseStep, hph]

/-- Settles O35: the step is `phasePRead`, whose bit is the controller's because the lines are released. -/
theorem pollReadSamplesBusyFlag : Obligations.PollReadSamplesBusyFlag := by
  intro s hbusy hdoe hbound hanswer
  have ⟨_, hph, _⟩ := hbusy
  have hok := answersOk_eq_true_iff.mpr ⟨hbound, hanswer⟩
  rw [step_of_busy hbusy nofun, phaseStep, hph]
  exact congrArg Host.Outcome.next (phasePRead_of_ok hdoe hok)

/-- Settles O36: the step is `respondCore`. -/
theorem donePresentsStatus : Obligations.DonePresentsStatus := by
  intro s hbusy
  have ⟨_, hph, _⟩ := hbusy
  rw [step_of_busy hbusy nofun, phaseStep, hph]
  rfl

end Sys2Proof.Machine
end

section
/-! PROOFS. The core does not know the front-end's state (spec/41_transfer_sequencer.md R133, spec/60_exceptions.md
R204): no phase reads or writes it, so two engines that differ in it alone run the same phases. -/

namespace Sys2Proof.Machine

open Sys2Proof.Spec

/-- The front-end's registers and statuses (spec/10_state.md R31 to R33, R39). -/
structure FrontEndState where
  ist : InitState
  cur : Cursor
  dcb : BitVec 3
  feResponses : List Status

/-- The same core with another front-end state. -/
def State.withFrontEnd (fe : FrontEndState) (s : State) : State :=
  { s with ist := fe.ist, cur := fe.cur, dcb := fe.dcb, feResponses := fe.feResponses }

variable {fe : FrontEndState} {s : State} {pin : PinId}

theorem popDraw_withFrontEnd (s : State) : popDraw (s.withFrontEnd fe) = (popDraw s).withFrontEnd fe := by
  unfold popDraw State.withFrontEnd
  cases s.draws <;> rfl

theorem pinWrite_withFrontEnd (pin : PinId) (v : Bit) (s : State) :
    pinWrite pin v (s.withFrontEnd fe) = Prod.map id (State.withFrontEnd fe) (pinWrite pin v s) := by
  have hanswer : answersOk (s.withFrontEnd fe) pin = answersOk s pin := rfl
  unfold pinWrite
  rw [hanswer, popDraw_withFrontEnd]
  cases answersOk s pin <;> rfl

theorem pinRead_withFrontEnd (pin : PinId) (s : State) :
    pinRead pin (s.withFrontEnd fe) = Prod.map id (State.withFrontEnd fe) (pinRead pin s) := by
  have hanswer : answersOk (s.withFrontEnd fe) pin = answersOk s pin := rfl
  have hlevel : readLevel (s.withFrontEnd fe) pin = readLevel s pin := rfl
  unfold pinRead
  rw [hanswer, hlevel, popDraw_withFrontEnd]
  cases answersOk s pin <;> rfl

theorem drive_withFrontEnd {v : Bit} {next : State → State}
    (hnext : Function.Commute next (State.withFrontEnd fe)) :
    Function.Commute (drive pin v next) (State.withFrontEnd fe) := by
  intro s
  unfold drive
  rw [pinWrite_withFrontEnd]
  rcases pinWrite pin v s with ⟨_ | _, u⟩
  · rfl
  · exact hnext u

theorem sample_withFrontEnd {next : Bit → State → State}
    (hnext : ∀ b, Function.Commute (next b) (State.withFrontEnd fe)) :
    Function.Commute (sample pin next) (State.withFrontEnd fe) := by
  intro s
  unfold sample
  rw [pinRead_withFrontEnd]
  rcases pinRead pin s with ⟨_ | b, u⟩
  · rfl
  · exact hnext b u

/-- A branch that does not look at the front-end's state. -/
theorem ite_eq_withFrontEnd {p : Prop} [Decidable p] {a b a' b' : State} (ha : a' = a.withFrontEnd fe)
    (hb : b' = b.withFrontEnd fe) : (if p then a' else b') = (if p then a else b).withFrontEnd fe := by
  split <;> assumption

/-- No phase reads or writes the front-end's state. -/
theorem phaseStep_withFrontEnd : Function.Commute phaseStep (State.withFrontEnd fe) := by
  intro s
  have hph : (s.withFrontEnd fe).ph = s.ph := rfl
  unfold phaseStep
  rw [hph]
  cases s.ph with dsimp only
  | fRs | fRw | fEhi | fElo | pRw | pEhi | pElo | pEhi2 | pElo2 =>
    refine drive_withFrontEnd ?_ s
    exact fun _ => rfl
  | pRs =>
    refine drive_withFrontEnd ?_ { s with doe := false }
    exact fun _ => rfl
  | fData =>
    have hnext : Function.Commute afterDataLine (State.withFrontEnd fe) := fun _ => ite_eq_withFrontEnd rfl rfl
    have henabled : (if s.di = 0 then { s.withFrontEnd fe with doe := true } else s.withFrontEnd fe) =
        (if s.di = 0 then { s with doe := true } else s).withFrontEnd fe := ite_eq_withFrontEnd rfl rfl
    exact (congrArg (drive _ _ afterDataLine) henabled).trans (drive_withFrontEnd hnext _)
  | pRead =>
    refine sample_withFrontEnd ?_ s
    exact fun _ _ => rfl
  | fHold => exact ite_eq_withFrontEnd rfl rfl
  | pTest =>
    dsimp only [phasePTest]
    exact ite_eq_withFrontEnd rfl (ite_eq_withFrontEnd rfl rfl)
  | _ => rfl

/-- A core request of an engine with another front-end state. -/
theorem coreRequest_withFrontEnd (h : Accepts s) (rs : Bit) (b : Byte) :
    coreRequest rs b (s.withFrontEnd fe) = (coreRequest rs b s).withFrontEnd fe := by
  have h' : Accepts (s.withFrontEnd fe) := h
  have ⟨_, _, hr⟩ := h
  rw [coreRequest_of_accepts h, coreRequest_of_accepts h']
  refine runPhases_induction₂ (P := fun u₁ u₂ => u₁ = u₂.withFrontEnd fe) ?_ ?_ _ rfl hr hr
  · rintro _ u rfl
    rfl
  · rintro _ u rfl
    exact phaseStep_withFrontEnd u

/-- Settles O21: both engines run the same phases (`coreRequest_withFrontEnd`). -/
theorem coreIgnoresFrontEndState : Obligations.CoreIgnoresFrontEndState := by
  intro s t rs b ist cur dcb fe haccepts hexec
  obtain ⟨-, -, rfl⟩ := exec_coreInstr_next hexec
  have haccepts' : Accepts (s.withFrontEnd ⟨ist, cur, dcb, fe⟩) := haccepts
  have hrun := exec_coreInstr_of_accepts haccepts' rs b
  rwa [coreRequest_withFrontEnd haccepts] at hrun

end Sys2Proof.Machine
end

section
/-! PROOFS. The events to come in each phase of a request (spec/40_bus_framing.md R106, R107,
spec/41_transfer_sequencer.md R113, R127), and that every phase performs the first of them or fails in it. -/

namespace Sys2Proof.Machine

open Sys2Proof.Spec

variable {s t : State} {c : Config} {rs r : Bit} {b : Byte} {id : PinId} {v : Bit}

/-! ## The trace of a request -/

/-- The second strobe of a poll iteration, in which nothing is read (spec/41_transfer_sequencer.md R124). -/
def unreadStrobe (c : Config) : List Event := if c.busw = .four then strobeTrace c else []

theorem pollIteration_eq (c : Config) (r : Bit) : pollIteration c r =
    .wrote .e c.lvlEAct :: .waited .tPw :: .readBit (.dl (topLine c.busw)) r :: .wrote .e c.lvlEIdle ::
      .waited .tH :: unreadStrobe c := by
  cases hw : c.busw <;> simp [pollIteration, unreadStrobe, topLine, hw]

theorem pollTrace_concat (c : Config) (reads : List Bit) (r : Bit) :
    pollTrace c (reads ++ [r]) = pollTrace c reads ++ pollIteration c r := by
  simp [pollTrace]

/-- The settle of a request: the poll, or the fixed delay (spec/41_transfer_sequencer.md R113). -/
def settleTrace (c : Config) (rs : Bit) (b : Byte) (reads : List Bit) : List Event :=
  if c.rwPresent then pollTrace c reads else [.waited (settleWait c rs b)]

theorem requestTrace_eq (c : Config) (rs : Bit) (b : Byte) (reads : List Bit) :
    requestTrace c rs b reads = emitTrace c rs b ++ settleTrace c rs b reads := by
  rw [requestTrace, settleTrace, settleWait_eq]

/-! ## Events to come -/

/-- The events that a transfer in this phase has still to perform if its present poll iteration (before the poll, the
first one) is the last and reads `r`. -/
def toCome (s : State) (r : Bit) : List Event :=
  match s.ph with
  | .fRs | .fRw | .fData | .fSetup | .fEhi | .fPw | .fElo | .fHold =>
    emitToCome s ++ settleTrace s.cfg s.reqRs s.reqByte [r]
  | .sDelay => [.waited (settleWait s.cfg s.reqRs s.reqByte)]
  | .pRs => pollTrace s.cfg [r]
  | .pRw => .wrote .rw s.cfg.lvlRead :: .waited .tAs :: pollIteration s.cfg r
  | .pSetup => .waited .tAs :: pollIteration s.cfg r
  | .pEhi => pollIteration s.cfg r
  | .pPw =>
    .waited .tPw :: .readBit (.dl (topLine s.cfg.busw)) r :: .wrote .e s.cfg.lvlEIdle :: .waited .tH ::
      unreadStrobe s.cfg
  | .pRead =>
    .readBit (.dl (topLine s.cfg.busw)) r :: .wrote .e s.cfg.lvlEIdle :: .waited .tH :: unreadStrobe s.cfg
  | .pElo => .wrote .e s.cfg.lvlEIdle :: .waited .tH :: unreadStrobe s.cfg
  | .pHold => .waited .tH :: unreadStrobe s.cfg
  | .pEhi2 => strobeTrace s.cfg
  | .pPw2 => [.waited .tPw, .wrote .e s.cfg.lvlEIdle, .waited .tH]
  | .pElo2 => [.wrote .e s.cfg.lvlEIdle, .waited .tH]
  | .pHold2 => [.waited .tH]
  | .idle | .pTest | .done => []

/-- The present iteration has read `r`, if it has come to its read. -/
def HasRead (s : State) (r : Bit) : Prop := s.ph.flagSampled = true → s.bfs = r

/-- With `r` read in the present iteration, the events to come in `s` are `e` and then those to come in `t`. -/
structure Follows (r : Bit) (e : Event) (s t : State) : Prop where
  toCome : toCome s r = e :: toCome t r
  read : HasRead t r
  pcnt : t.pcnt = s.pcnt
  inTransfer : t.ph.inTransfer = true
  /-- the fixed delay only without a read/write line (spec/41_transfer_sequencer.md R113) -/
  delay : t.ph = .sDelay → s.cfg.rwPresent = false

/-- From `s` to `t` the first of the events to come has happened. -/
def PerformsNext (r : Bit) (s t : State) : Prop := ∃ e, Performs e s t ∧ Follows r e s t

/-- From `s` to `t` the first of the events to come has failed, and the request with it. -/
structure FailsNext (r : Bit) (s t : State) : Prop where
  ended : t.ph = .done ∧ t.res = .pinFault
  coreResponses : t.coreResponses = s.coreResponses
  event : ∃ e id owed, toCome s r = e :: owed ∧ e.pin = some id ∧ answersOk s id = false ∧
    t.trace = s.trace ++ [failed e]

/-- From `s` to `t` the first of the events to come has happened or failed. -/
def TakesNext (r : Bit) (s t : State) : Prop := PerformsNext r s t ∨ FailsNext r s t

/-! ## Operations -/

theorem takesNext_drive {next : State → State} (hrecords : ∀ u, (next u).records = u.records)
    (hnext : ∀ draws drawn, Follows r (.wrote id v) s (next (logEvent (.wrote id v)
      { s with lines := setLine s.lines id v, draws := draws, drawn := drawn }))) :
    TakesNext r s (drive id v next s) := by
  cases h : answersOk s id with
  | true =>
    have hwrite := performs_write id v s
    rw [drive_of_ok h]
    obtain ⟨draws, drawn, hpop⟩ := popDraw_eq s
    rw [hpop] at hwrite ⊢
    exact .inl ⟨_, hwrite.congr rfl (hrecords _), hnext draws drawn⟩
  | false =>
    rw [drive_of_fail h]
    refine .inr ⟨⟨rfl, rfl⟩, popDraw_coreResponses s, _, id, _, (hnext s.draws s.drawn).toCome, rfl, h, ?_⟩
    rw [abort_trace, logEvent_trace, trace_popDraw_lines]
    rfl

/-- Enabling or releasing the drivers first changes neither the records nor the events to come. -/
theorem TakesNext.of_doe {doe : Bit} (h : TakesNext r { s with doe := doe } t) : TakesNext r s t := by
  rcases h with ⟨e, hperforms, hcome, hread, hpcnt, hin, hdelay⟩ | ⟨hended, hresp, hevent⟩
  · exact .inl ⟨e, hperforms.congr rfl rfl, hcome, hread, hpcnt, hin, hdelay⟩
  · exact .inr ⟨hended, hresp, hevent⟩

theorem takesNext_waitFor {p q : Phase} {w : WaitParam} (h : Follows r (.waited w) (goto p s) (goto q s)) :
    TakesNext r (goto p s) (goto q (waitFor w s)) :=
  .inl ⟨_, (performs_waitFor w s).congr rfl rfl, h.toCome, h.read, h.pcnt, h.inTransfer, h.delay⟩

theorem performs_read (id : PinId) (r : Bit) (s : State) :
    Performs (.readBit id r) s (logEvent (.readBit id r) (popDraw s)) where
  trace := by rw [logEvent_trace, popDraw_trace]
  lines := popDraw_lines s
  answers := drawAt_popDraw s
  coreResponses := popDraw_coreResponses s

theorem takesNext_phasePRead (hp : s.ph = .pRead) (hdoe : s.doe = false) (hr : (drawAt s 0).bit = r) :
    TakesNext r s (phasePRead s) := by
  have hcome : toCome s r = .readBit (.dl (topLine s.cfg.busw)) r :: toCome (goto .pElo s) r := by
    simp [toCome, hp]
  cases hok : answersOk s (.dl (topLine s.cfg.busw)) with
  | true =>
    have hread := performs_read (.dl (topLine s.cfg.busw)) r s
    rw [phasePRead_of_ok hdoe hok, hr]
    obtain ⟨draws, drawn, hpop⟩ := popDraw_eq s
    rw [hpop] at hread ⊢
    exact .inl ⟨_, hread.congr rfl rfl, hcome, fun _ => rfl, rfl, rfl, nofun⟩
  | false =>
    unfold phasePRead
    rw [sample_of_fail hok]
    refine .inr ⟨⟨rfl, rfl⟩, popDraw_coreResponses s, _, _, _, hcome, rfl, hok, ?_⟩
    rw [abort_trace, logEvent_trace, popDraw_trace]
    rfl

/-! ## Phases -/

/-- On to the low nibble, or to the settle (spec/40_bus_framing.md R103). -/
theorem takesNext_phaseFHold (s : State) : TakesNext r (goto .fHold s) (phaseFHold (goto .fHold s)) := by
  dsimp only [phaseFHold]
  split
  · next hfirst =>
    obtain ⟨hw, hnib⟩ : s.cfg.busw = .four ∧ s.nib = false := hfirst
    have hlow : lowNibbleFraming s.cfg s.reqByte s.nib = framingFrom s.cfg s.reqByte true 0 :=
      hnib ▸ lowNibbleFraming_high hw s.reqByte
    refine .inl ⟨_, (performs_waitFor .tH s).congr rfl rfl, ?_, nofun, rfl, rfl, nofun⟩
    simp [toCome, emitToCome, waitFor_eq, lowNibbleFraming_low, hlow]
  · next hlast =>
    have hlow : lowNibbleFraming s.cfg s.reqByte s.nib = [] := if_neg hlast
    have hcome : toCome (goto .fHold s) r =
        .waited .tH :: toCome (goto (if s.cfg.rwPresent then .pRs else .sDelay) s) r := by
      cases hconn : s.cfg.rwPresent <;> simp [toCome, emitToCome, settleTrace, hlow, hconn]
    refine takesNext_waitFor (s := s) ⟨hcome, by split <;> nofun, rfl, by split <;> rfl, ?_⟩
    cases hconn : s.cfg.rwPresent <;> simp [waitFor_eq, hconn]

/-- In every phase of a transfer but `S_DELAY` and `P_TEST` the first of the events to come happens or fails, and if it
happens, the transfer goes on. The phase is a variable, so that in each case `toCome` computes. -/
theorem takesNext_phaseStep (p : Phase) (h : Transferring c rs b (goto p s)) (hr : HasRead (goto p s) r)
    (hdraw : p = .pRead → (drawAt s 0).bit = r) (hin : p.inTransfer = true) (hdelay : p ≠ .sDelay)
    (htest : p ≠ .pTest) : TakesNext r (goto p s) (phaseStep (goto p s)) := by
  obtain ⟨⟨rfl, hdi, -⟩, rfl, rfl, hbus⟩ := h
  cases p with
  | idle | done => cases hin
  | sDelay => exact absurd rfl hdelay
  | pTest => exact absurd rfl htest
  | fSetup | fPw | pSetup | pPw => exact takesNext_waitFor ⟨rfl, nofun, rfl, rfl, nofun⟩
  | pPw2 | pHold2 => exact takesNext_waitFor ⟨rfl, hr, rfl, rfl, nofun⟩
  | pHold =>
    refine takesNext_waitFor (s := s) ?_
    split
    · next hw => exact ⟨congrArg (_ :: ·) (if_pos hw), hr, rfl, rfl, nofun⟩
    · next hw => exact ⟨congrArg (_ :: ·) (if_neg hw), hr, rfl, rfl, nofun⟩
  | fHold => exact takesNext_phaseFHold s
  | fEhi | fElo | fRw | pRw => exact takesNext_drive (fun _ => rfl) fun _ _ => ⟨rfl, nofun, rfl, rfl, nofun⟩
  | pEhi => exact takesNext_drive (fun _ => rfl) fun _ _ => ⟨pollIteration_eq _ r, nofun, rfl, rfl, nofun⟩
  | pElo | pEhi2 | pElo2 => exact takesNext_drive (fun _ => rfl) fun _ _ => ⟨rfl, hr, rfl, rfl, nofun⟩
  | fRs =>
    have hcome : toCome (goto .fRs s) r = .wrote .rs (rsLevel s.cfg s.reqRs) ::
        toCome (goto (if s.cfg.rwPresent then .fRw else .fData) { s with di := 0 }) r := by
      cases hconn : s.cfg.rwPresent <;> simp [toCome, emitToCome, hconn]
    exact takesNext_drive (fun _ => rfl) fun _ _ =>
      ⟨hcome, by split <;> nofun, rfl, by split <;> rfl, by split <;> nofun⟩
  | pRs =>
    have hcome : toCome (goto .pRs s) r = .wrote .rs s.cfg.lvlCmd :: toCome (goto .pRw s) r := by
      simp [toCome, pollTrace]
    exact .of_doe (takesNext_drive (fun _ => rfl) fun _ _ => ⟨hcome, nofun, rfl, rfl, nofun⟩)
  | fData =>
    obtain ⟨-, -, hdoe, -⟩ := hbus
    have hphase : phaseStep (goto .fData s) = _ := phaseFData_eq hdoe
    rw [hphase]
    refine .of_doe (takesNext_drive afterDataLine_records fun _ _ => ?_)
    unfold afterDataLine
    split
    · next htop =>
      have hframing := framingFrom_topLine htop s.reqByte s.nib
      exact ⟨congrArg (· ++ _ ++ _) hframing, nofun, rfl, rfl, nofun⟩
    · next hne =>
      have hframing := framingFrom_of_ne_topLine hdi hne s.reqByte s.nib
      exact ⟨congrArg (· ++ _ ++ _) hframing, nofun, rfl, rfl, nofun⟩
  | pRead => exact takesNext_phasePRead rfl (doe_of_pollStrobe hbus) (hdraw rfl)

end Sys2Proof.Machine
end

section
/-! PROOFS. The run of a core request (spec/41_transfer_sequencer.md R110 to R130): from acceptance on it is in
progress, until it has performed its whole trace or a transaction of it has failed. -/

namespace Sys2Proof.Machine

open Sys2Proof.Spec

variable {s s₀ t u : State} {rs : Bit} {b : Byte} {e : Event} {id : PinId} {tr : List Event}

/-! ## Lists of events -/

/-- From `s` to `t` exactly the events `tr` have happened. -/
structure PerformsAll (tr : List Event) (s t : State) : Prop where
  trace : t.trace = s.trace ++ tr
  lines : t.lines = linesAfter s.lines tr
  answers : ∀ k, drawAt t k = drawAt s (k + pinOperations tr)
  coreResponses : t.coreResponses = s.coreResponses

theorem PerformsAll.concat (h : PerformsAll tr s t) (he : Performs e t u) : PerformsAll (tr ++ [e]) s u where
  trace := by rw [he.trace, h.trace, List.append_assoc]
  lines := by rw [he.lines, h.lines, linesAfter, linesAfter, List.foldl_concat]
  answers k := by rw [he.answers, h.answers, pinOperations_append, Nat.add_assoc, Nat.add_comm (pinOperations tr)]
  coreResponses := he.coreResponses.trans h.coreResponses

/-- Registers do not matter. -/
theorem PerformsAll.congr (h : PerformsAll tr s t) (hu : u.records = t.records) : PerformsAll tr s u := by
  simp only [State.records, Prod.mk.injEq] at hu
  obtain ⟨hhist, hlines, hdraws, hdrawn, hresp⟩ := hu
  exact ⟨(trace_eq_of_history hhist).trans h.trace, hlines.trans h.lines,
    fun k => (drawAt_congr hdraws hdrawn k).trans (h.answers k), hresp.trans h.coreResponses⟩

theorem pin_failed (e : Event) : (failed e).pin = e.pin := by cases e <;> rfl

theorem isPinOperation_failed (e : Event) : (failed e).isPinOperation = e.isPinOperation := by cases e <;> rfl

theorem isPinOperation_of_pin (h : e.pin = some id) : e.isPinOperation = true := by
  cases e with
  | waited => cases h
  | _ => rfl

theorem isFailure_failed (h : e.isPinOperation = true) : (failed e).isFailure = true := by
  cases e with
  | waited => cases h
  | _ => rfl

/-! ## The answers to the reads of the poll -/

/-- The answers to the first `n` reads of the next request's poll. -/
def busyAnswers (s : State) (n : Nat) : List Bit := (List.range n).map (busyAnswer s)

/-- The first `n` reads of the next request's poll are busy. -/
def BusyUntil (s : State) (n : Nat) : Prop := ∀ j < n, busyAnswer s j = s.cfg.busy

theorem length_busyAnswers (s : State) (n : Nat) : (busyAnswers s n).length = n := by simp [busyAnswers]

theorem busyAnswers_succ (s : State) (n : Nat) : busyAnswers s (n + 1) = busyAnswers s n ++ [busyAnswer s n] := by
  simp [busyAnswers, List.range_succ]

theorem busyAnswers_of_busyUntil {n : Nat} (h : BusyUntil s n) : busyAnswers s n = List.replicate n s.cfg.busy := by
  rw [busyAnswers, List.map_eq_replicate_iff.mpr fun j hj => h j (List.mem_range.mp hj), List.length_range]

theorem busyUntil_succ_iff {n : Nat} : BusyUntil s (n + 1) ↔ BusyUntil s n ∧ busyAnswer s n = s.cfg.busy :=
  Nat.forall_lt_succ_right

/-- Pin operations of a request: those of `EMIT`, then the poll's (spec/41_transfer_sequencer.md R127). -/
theorem pinOperations_requestTrace (c : Config) (rs : Bit) (b : Byte) (reads : List Bit) :
    pinOperations (requestTrace c rs b reads) =
      emitOps c + if c.rwPresent then 2 + iterationOps c * reads.length else 0 := by
  have hiteration (r : Bit) : pinOperations (pollIteration c r) = iterationOps c := by
    unfold pollIteration iterationOps
    cases c.busw <;> rfl
  have hpoll : pinOperations (pollTrace c reads) = 2 + iterationOps c * reads.length := by
    induction reads using List.reverseRecOn with
    | nil => rfl
    | append_singleton reads r ih =>
      rw [pollTrace_concat, pinOperations_append, ih, hiteration, List.length_append, List.length_singleton,
        Nat.mul_add, Nat.mul_one, Nat.add_assoc]
  rw [requestTrace_eq, pinOperations_append, pinOperations_emitTrace, settleTrace]
  cases c.rwPresent
  · rfl
  · rw [if_pos rfl, if_pos rfl, hpoll]

/-! ## The states of a request -/

/-- A transfer begun in `s₀`, in progress and not faulted, has come to the phase of `s`. -/
structure Running (s₀ : State) (rs : Bit) (b : Byte) (s : State) : Prop where
  transferring : Transferring s₀.cfg rs b s
  inTransfer : s.ph.inTransfer = true
  pollLeft : s.pcnt < s₀.cfg.pollMax
  /-- the fixed delay only without a read/write line (spec/41_transfer_sequencer.md R113) -/
  delay : s.ph = .sDelay → s₀.cfg.rwPresent = false
  busy : BusyUntil s₀ s.pcnt
  read : HasRead s (busyAnswer s₀ s.pcnt)
  trace : ∃ tr, PerformsAll tr s₀ s ∧
    tr ++ toCome s (busyAnswer s₀ s.pcnt) = requestTrace s₀.cfg rs b (busyAnswers s₀ (s.pcnt + 1))

/-- The poll has ended with read number `p`, counted from 0: not busy, or the last one allowed. -/
structure Polled (s₀ : State) (p : Nat) (s : State) : Prop where
  lt : p < s₀.cfg.pollMax
  busy : BusyUntil s₀ p
  pcnt : s.pcnt = p + 1
  bfs : s.bfs = busyAnswer s₀ p
  doe : s.doe = false
  res : busyAnswer s₀ p ≠ s₀.cfg.busy ∧ s.res = .ok ∨
    busyAnswer s₀ p = s₀.cfg.busy ∧ p + 1 = s₀.cfg.pollMax ∧ s.res = .hardwareTimeout

/-- The request accepted in `s₀` has performed its whole trace. -/
structure Completed (s₀ : State) (rs : Bit) (b : Byte) (s : State) : Prop where
  pollCount : s.pcnt ≤ s₀.cfg.pollMax
  performs : PerformsAll (requestTrace s₀.cfg rs b (busyAnswers s₀ s.pcnt)) s₀ s
  settled : s₀.cfg.rwPresent = false ∧ s.res = .ok ∨ s₀.cfg.rwPresent = true ∧ ∃ p, Polled s₀ p s

/-- The transaction `e` fails after the events `before`, in iteration number `p` of the poll, or, with `p = 0`, before
the poll. -/
structure FailsAfter (s₀ : State) (rs : Bit) (b : Byte) (p : Nat) (before : List Event) (e : Event) : Prop where
  lt : p < s₀.cfg.pollMax
  busy : BusyUntil s₀ p
  isPrefix : before ++ [e] <+: requestTrace s₀.cfg rs b (busyAnswers s₀ (p + 1))
  isPinOperation : e.isPinOperation = true
  answer : PinsBound s₀.cfg → (drawAt s₀ (pinOperations before)).fails = true

/-- The request accepted in `s₀` has ended with a failed transaction. -/
structure Faulted (s₀ : State) (rs : Bit) (b : Byte) (s : State) : Prop where
  res : s.res = .pinFault
  coreResponses : s.coreResponses = s₀.coreResponses
  event : ∃ p before e, FailsAfter s₀ rs b p before e ∧ s.trace = s₀.trace ++ (before ++ [failed e])

/-- The request accepted in `s₀` is about to respond. -/
def Ended (s₀ : State) (rs : Bit) (b : Byte) (s : State) : Prop :=
  s.ph = .done ∧ (Completed s₀ rs b s ∨ Faulted s₀ rs b s)

theorem running_accept (h : Accepts s) (rs : Bit) (b : Byte) : Running s rs b (accept rs b s) := by
  have hnone : PerformsAll [] s (accept rs b s) := ⟨(List.append_nil _).symm, rfl, fun _ => rfl, rfl⟩
  have hcome : toCome (accept rs b s) (busyAnswer s 0) = requestTrace s.cfg rs b (busyAnswers s 1) := by
    rw [requestTrace_eq, ← emitToCome_accept]
    rfl
  exact ⟨transferring_accept rs b s, rfl, one_le_pollMax_of_legalConfig h.1, nofun, nofun, nofun, [], hnone, hcome⟩

/-! ## The phases of a request -/

/-- `P_READ` meets the answer that `busyAnswer` names: the iteration has its read and later operations still to come. -/
theorem Running.drawAt_zero_bit (h : Running s₀ rs b s) (hp : s.ph = .pRead) :
    (drawAt s 0).bit = busyAnswer s₀ s.pcnt := by
  obtain ⟨⟨⟨hcfg, -, hrw⟩, -, -, -⟩, -, -, -, -, -, tr, hperforms, htrace⟩ := h
  have hconn : s₀.cfg.rwPresent = true := hrw (by rw [hp]; rfl)
  have hleft : pinOperations (toCome s (busyAnswer s₀ s.pcnt)) + 1 = iterationOps s₀.cfg := by
    rw [← hcfg]
    cases hw : s.cfg.busw <;> simp only [toCome, hp, iterationOps, unreadStrobe, hw] <;> rfl
  have hops := congrArg pinOperations htrace
  rw [pinOperations_append, pinOperations_requestTrace, if_pos hconn, length_busyAnswers, Nat.mul_add] at hops
  rw [hperforms.answers, busyAnswer]
  congr 2
  omega

theorem Running.of_performsNext (h : Running s₀ rs b s) (hnext : PerformsNext (busyAnswer s₀ s.pcnt) s t)
    (ht : Transferring s₀.cfg rs b t) : Running s₀ rs b t := by
  obtain ⟨htransfer, -, hleft, -, hbusy, -, tr, hperforms, htrace⟩ := h
  obtain ⟨e, he, hcome, hread, hpcnt, hin, hdelay⟩ := hnext
  rw [htransfer.withinPins.cfg] at hdelay
  rw [← hpcnt] at hleft hbusy hread hcome htrace
  refine ⟨ht, hin, hleft, hdelay, hbusy, hread, tr ++ [e], hperforms.concat he, ?_⟩
  rwa [List.append_assoc, List.singleton_append, ← hcome]

theorem Running.of_failsNext (h : Running s₀ rs b s) (hnext : FailsNext (busyAnswer s₀ s.pcnt) s (phaseStep s)) :
    Ended s₀ rs b (phaseStep s) := by
  obtain ⟨htransfer, -, hleft, -, hbusy, -, tr, hperforms, htrace⟩ := h
  obtain ⟨⟨hdone, hres⟩, hresp, e, id, owed, hcome, hpin, hanswer, hfailed⟩ := hnext
  have hprefix : tr ++ [e] <+: requestTrace s₀.cfg rs b (busyAnswers s₀ (s.pcnt + 1)) :=
    ⟨owed, by rw [← htrace, hcome, List.append_assoc, List.singleton_append]⟩
  have hfails : PinsBound s₀.cfg → (drawAt s₀ (pinOperations tr)).fails = true := by
    intro hpins
    obtain ⟨-, new, hnew, hnames⟩ := phaseStep_namesOnly htransfer.withinPins
    obtain rfl := List.append_cancel_left (hfailed.symm.trans hnew)
    have hid : id ∈ reqPins s₀.cfg := hnames _ (List.mem_singleton_self _) id ((pin_failed e).trans hpin)
    have hanswer := answersOk_eq_false_iff.mp hanswer
    rw [htransfer.withinPins.cfg, hpins id hid, hperforms.answers, Nat.zero_add] at hanswer
    exact hanswer.resolve_left nofun
  refine ⟨hdone, .inr ⟨hres, hresp.trans hperforms.coreResponses, s.pcnt, tr, e, ?_, ?_⟩⟩
  · exact ⟨hleft, hbusy, hprefix, isPinOperation_of_pin hpin, hfails⟩
  · rw [hfailed, hperforms.trace, List.append_assoc]

theorem Running.phaseSDelay (h : Running s₀ rs b s) (hp : s.ph = .sDelay) : Ended s₀ rs b (phaseSDelay s) := by
  obtain ⟨-, -, hleft, hdelay, -, -, tr, hperforms, htrace⟩ := h
  have hcome : toCome s (busyAnswer s₀ s.pcnt) = [.waited (settleWait s.cfg s.reqRs s.reqByte)] := by
    simp [toCome, hp]
  have hnoreads : requestTrace s₀.cfg rs b (busyAnswers s₀ (s.pcnt + 1)) =
      requestTrace s₀.cfg rs b (busyAnswers s₀ s.pcnt) := by
    rw [requestTrace_fixedDelay (hdelay hp), requestTrace_fixedDelay (hdelay hp)]
  have hall := hperforms.concat (performs_waitFor (settleWait s.cfg s.reqRs s.reqByte) s)
  rw [← hcome, htrace, hnoreads] at hall
  exact ⟨rfl, .inl ⟨hleft.le, hall.congr rfl, .inl ⟨hdelay hp, rfl⟩⟩⟩

/-- `P_TEST` ends the request or begins the next iteration (spec/41_transfer_sequencer.md R125). -/
theorem Running.phasePTest (h : Running s₀ rs b s) (hp : s.ph = .pTest)
    (ht : Transferring s₀.cfg rs b (phasePTest s)) :
    Running s₀ rs b (phasePTest s) ∨ Ended s₀ rs b (phasePTest s) := by
  obtain ⟨⟨⟨hcfg, -, hrw⟩, -, -, hbus⟩, -, hleft, -, hbusy, hread, tr, hperforms, htrace⟩ := h
  have hconn : s₀.cfg.rwPresent = true := hrw (by rw [hp]; rfl)
  have hbfs : s.bfs = busyAnswer s₀ s.pcnt := hread (by rw [hp]; rfl)
  have hdoe : s.doe = false := by
    simp only [busPrepared, hp] at hbus
    exact doe_of_pollStrobe hbus
  have hcome : toCome s (busyAnswer s₀ s.pcnt) = [] := by simp [toCome, hp]
  rw [hcome, List.append_nil] at htrace
  subst htrace
  rw [phasePTest_eq, hcfg] at ht ⊢
  split
  · next hfree =>
    rw [hbfs] at hfree
    exact .inr ⟨rfl, .inl ⟨hleft, hperforms.congr rfl,
      .inr ⟨hconn, s.pcnt, hleft, hbusy, rfl, hbfs, hdoe, .inl ⟨hfree, rfl⟩⟩⟩⟩
  · next hstill =>
    rw [if_neg hstill] at ht
    rw [hbfs, not_not] at hstill
    split
    · next hlast =>
      exact .inr ⟨rfl, .inl ⟨hleft, hperforms.congr rfl,
        .inr ⟨hconn, s.pcnt, hleft, hbusy, rfl, hbfs, hdoe, .inr ⟨hstill, hlast, rfl⟩⟩⟩⟩
    · next hmore =>
      rw [if_neg hmore] at ht
      have hnext : s.pcnt + 1 < s₀.cfg.pollMax := by omega
      refine .inl ⟨ht, rfl, hnext, nofun, busyUntil_succ_iff.mpr ⟨hbusy, hstill⟩, nofun, _, hperforms.congr rfl, ?_⟩
      simp [toCome, busyAnswers_succ s₀ (s.pcnt + 1), requestTrace_eq, settleTrace, hconn, pollTrace_concat]

/-- Every phase of a transfer goes on with it or ends it. -/
theorem Running.phaseStep (h : Running s₀ rs b s) :
    Running s₀ rs b (phaseStep s) ∨ Ended s₀ rs b (phaseStep s) := by
  have ht := phaseStep_transferring h.transferring
  by_cases hdelay : s.ph = .sDelay
  · rw [Machine.phaseStep, hdelay]
    exact .inr (h.phaseSDelay hdelay)
  by_cases htest : s.ph = .pTest
  · rw [Machine.phaseStep, htest] at ht ⊢
    exact h.phasePTest htest ht
  rcases takesNext_phaseStep s.ph h.transferring h.read h.drawAt_zero_bit h.inTransfer hdelay htest with hnext | hnext
  · exact .inl (h.of_performsNext hnext ht)
  · exact .inr (h.of_failsNext hnext)

/-! ## The whole request -/

/-- With no `rst` to come, what every phase of a busy engine keeps holds when the phases end. -/
theorem runPhases_induction_of_rstIn_none {P : State → Prop} (hphase : ∀ u, u.ph ≠ .idle → P u → P (phaseStep u))
    (fuel : Nat) (hr : s.rstIn = none) (h : P s) : P (runPhases fuel s) := by
  refine (runPhases_induction (P := fun u => u.rstIn = none ∧ P u) (fun u hbusy ⟨hr, hu⟩ => ?_) fuel s ⟨hr, h⟩).2
  have hr' := (phaseStep_coreFrame u).rstIn_none hr
  rw [countToRst_none hr']
  exact ⟨hr', hphase u hbusy hu⟩

/-- A core request of an accepting engine performs its whole trace or fails in it, and responds. -/
theorem coreRequest_outcome (h : Accepts s) (rs : Bit) (b : Byte) :
    ∃ u, coreRequest rs b s = respondCore u ∧ (Completed s rs b u ∨ Faulted s rs b u) := by
  have ⟨hidle, _⟩ := coreRequest_ends h rs b
  have ⟨_, _, hr⟩ := h
  rw [coreRequest_of_accepts h] at hidle ⊢
  have hrun := runPhases_induction_of_rstIn_none (s := accept rs b s)
    (P := fun u => Running s rs b u ∨ Ended s rs b u ∨ ∃ v, u = respondCore v ∧ Ended s rs b v)
    (fun u hbusy hu => ?_) (phaseBudget s.cfg) hr (.inl (running_accept h rs b))
  · rcases hrun with hrunning | ⟨hdone, -⟩ | ⟨v, hv, -, hended⟩
    · simpa [hidle, Phase.inTransfer] using hrunning.inTransfer
    · simp [hidle] at hdone
    · exact ⟨v, hv, hended⟩
  · rcases hu with hrunning | hended | ⟨v, rfl, -⟩
    · exact hrunning.phaseStep.imp_right .inl
    · have hrespond : phaseStep u = respondCore u := by rw [phaseStep, hended.1]
      exact .inr (.inr ⟨u, hrespond, hended⟩)
    · exact absurd rfl hbusy

end Sys2Proof.Machine
end

section
/-! PROOFS. What a core request has done when it is answered (spec/41_transfer_sequencer.md R126 to R132): its pin
operations, its status, and after a poll the trace and the lines. -/

namespace Sys2Proof.Machine

open Sys2Proof.Spec

variable {s u : State} {c : Config} {rs : Bit} {b : Byte} {reads : List Bit} {e : Event} {p : Nat}

/-! ## The answer to a request -/

/-- The transactions up to a failed one are at most those of the request with that iteration. -/
theorem FailsAfter.pinOperations_le {before : List Event} (h : FailsAfter s rs b p before e) :
    pinOperations (before ++ [failed e]) ≤ pinOperations (requestTrace s.cfg rs b (busyAnswers s (p + 1))) := by
  have hsame : pinOperations [failed e] = pinOperations [e] := by
    simp only [pinOperations, List.countP_singleton, isPinOperation_failed]
  rw [pinOperations_append, hsame, ← pinOperations_append]
  exact h.isPrefix.sublist.countP_le

/-- The bound for `POLL_MAX` iterations (spec/41_transfer_sequencer.md R130). -/
theorem pinOperations_requestTrace_le (rs : Bit) (b : Byte) (hlen : reads.length ≤ c.pollMax) :
    (c.busw = .eight → pinOperations (requestTrace c rs b reads) ≤ 12 + 2 + 3 * c.pollMax) ∧
      (c.busw = .four → pinOperations (requestTrace c rs b reads) ≤ 14 + 2 + 5 * c.pollMax) := by
  rw [pinOperations_requestTrace]
  constructor
  all_goals
    intro hw
    cases hconn : c.rwPresent <;> simp only [emitOps, iterationOps, hw, hconn, if_true, Bool.false_eq_true, if_false]
    all_goals omega

/-- The trace of a request lists transactions that answer `ok`. -/
theorem not_isFailure_of_mem_requestTrace (h : e ∈ requestTrace c rs b reads) : e.isFailure = false := by
  have hemit : ∀ e ∈ emitTrace c rs b, e.isFailure = false := by
    unfold emitTrace
    cases c.busw <;> cases c.rwPresent <;> simp [strobeTrace, Event.isFailure]
  have hiteration (r : Bit) : ∀ e ∈ pollIteration c r, e.isFailure = false := by
    unfold pollIteration
    cases c.busw <;> simp [strobeTrace, Event.isFailure]
  have hpoll : ∀ e ∈ pollTrace c reads, e.isFailure = false := by
    intro e he
    rcases List.mem_append.mp he with hstart | hiterations
    · simp only [List.mem_cons, List.not_mem_nil, or_false] at hstart
      rcases hstart with rfl | rfl | rfl <;> rfl
    · obtain ⟨_, hmem, he⟩ := List.mem_flatten.mp hiterations
      obtain ⟨r, -, rfl⟩ := List.mem_map.mp hmem
      exact hiteration r e he
  have hsettle : ∀ e ∈ settleTrace c rs b reads, e.isFailure = false := by
    unfold settleTrace
    split
    · exact hpoll
    · simp [Event.isFailure]
  rw [requestTrace_eq, List.mem_append] at h
  exact h.elim (hemit e) (hsettle e)

/-- A completed request ends `OK`, or with a read/write line `HardwareTimeout`. -/
theorem Completed.res_cases (h : Completed s rs b u) :
    u.res = .ok ∨ s.cfg.rwPresent = true ∧ u.res = .hardwareTimeout := by
  rcases h.settled with ⟨-, hok⟩ | ⟨hconn, p, hpolled⟩
  · exact .inl hok
  · exact hpolled.res.imp And.right fun ⟨_, _, htimeout⟩ => ⟨hconn, htimeout⟩

/-- Settles O13: a request performs its whole trace, in which nothing fails, or fails in it (`coreRequest_outcome`). -/
theorem everyCoreRequestIsAnswered : Obligations.EveryCoreRequestIsAnswered := by
  intro s rs b haccepts
  obtain ⟨hidle, hcore⟩ := coreRequest_ends haccepts rs b
  obtain ⟨u, hrespond, houtcome⟩ := coreRequest_outcome haccepts rs b
  have hexec := exec_coreInstr_of_accepts haccepts rs b
  have hlen {n : Nat} (hn : n ≤ s.cfg.pollMax) : (busyAnswers s n).length ≤ s.cfg.pollMax :=
    (length_busyAnswers s n).trans_le hn
  rw [hrespond] at hidle hcore hexec
  rcases houtcome with hcompleted | ⟨hfault, hresp, p, before, e, hfails, htrace⟩
  · have hres := hcompleted.res_cases
    obtain ⟨hcount, hperforms, -⟩ := hcompleted
    obtain ⟨height, hfour⟩ := pinOperations_requestTrace_le rs b (hlen hcount)
    refine ⟨_, _, hexec, hidle, hperforms.trace, hcore, by simp [hperforms.coreResponses], ?_, ?_, height, hfour⟩
    · refine iff_of_false (fun hfault => ?_) fun ⟨e, he, hfailed⟩ => ?_
      · simp [show u.res = .pinFault from hfault] at hres
      · simp [not_isFailure_of_mem_requestTrace he] at hfailed
    · intro hno htimeout
      simp [hno, show u.res = .hardwareTimeout from htimeout] at hres
  · have hle := hfails.pinOperations_le
    obtain ⟨height, hfour⟩ := pinOperations_requestTrace_le rs b (hlen hfails.lt)
    refine ⟨_, _, hexec, hidle, htrace, hcore, by simp [hresp], ?_, ?_, hle.trans ∘ height, hle.trans ∘ hfour⟩
    · exact iff_of_true hfault ⟨_, by simp, isFailure_failed hfails.isPinOperation⟩
    · exact fun _ htimeout => by cases hfault.symm.trans htimeout

/-! ## Counts of a successful request -/

theorem answersIn_append (tr tr' : List Event) : answersIn (tr ++ tr') = answersIn tr ++ answersIn tr' :=
  List.filterMap_append

theorem answersIn_requestTrace (hconn : c.rwPresent = true) (rs : Bit) (b : Byte) (reads : List Bit) :
    answersIn (requestTrace c rs b reads) = reads := by
  have hiteration (r : Bit) : answersIn (pollIteration c r) = [r] := by
    unfold pollIteration
    cases c.busw <;> rfl
  have hpoll : answersIn (pollTrace c reads) = reads := by
    induction reads using List.reverseRecOn with
    | nil => rfl
    | append_singleton reads r ih => rw [pollTrace_concat, answersIn_append, ih, hiteration]
  have hemit : answersIn (emitTrace c rs b) = [] := by
    unfold emitTrace
    cases c.busw <;> cases c.rwPresent <;> rfl
  rw [requestTrace_eq, answersIn_append, hemit, settleTrace, if_pos hconn, hpoll, List.nil_append]

/-- The reads of a poll that ended `OK`: all busy but the last. -/
theorem Polled.busyAnswers_of_ok (h : Polled s p u) (hok : u.res = .ok) :
    busyAnswers s (p + 1) = List.replicate p s.cfg.busy ++ [!s.cfg.busy] := by
  have hfree : busyAnswer s p ≠ s.cfg.busy := by
    rcases h.res with ⟨hfree, -⟩ | ⟨-, -, htimeout⟩
    · exact hfree
    · cases hok.symm.trans htimeout
  rw [busyAnswers_succ, busyAnswers_of_busyUntil h.busy, Bool.eq_not_of_ne hfree]

/-- Settles O19: the request has performed its whole trace, with `PCNT` reads. -/
theorem successfulRequestPinCounts : Obligations.SuccessfulRequestPinCounts := by
  intro s t rs b haccepts hexec hok
  obtain ⟨-, -, rfl⟩ := exec_coreInstr_next hexec
  obtain ⟨u, hrespond, ⟨-, hperforms, hsettled⟩ | ⟨hfault, -⟩⟩ := coreRequest_outcome haccepts rs b
  · rw [hrespond] at hok ⊢
    have hops := pinOperations_requestTrace s.cfg rs b (busyAnswers s u.pcnt)
    rw [length_busyAnswers] at hops
    refine ⟨_, hperforms.trace, fun hno hw => ?_, fun hno hw => ?_, fun hconn => ?_, fun hconn hw => ?_,
      fun hconn hw => ?_⟩
    · simp [hops, hno, hw, emitOps]
    · simp [hops, hno, hw, emitOps]
    · rcases hsettled with ⟨hno, -⟩ | ⟨-, p, hpolled⟩
      · cases hno.symm.trans hconn
      · rw [answersIn_requestTrace hconn, respondCore_pcnt, hpolled.pcnt, hpolled.busyAnswers_of_ok hok]
        exact ⟨Nat.succ_pos p, hpolled.lt, rfl⟩
    · simp +arith [hops, hconn, hw, emitOps, iterationOps]
    · simp +arith [hops, hconn, hw, emitOps, iterationOps]
  · rw [hrespond] at hok
    cases hok.symm.trans hfault

/-! ## After a poll -/

/-- After a poll: Command, read, `E` idle (spec/41_transfer_sequencer.md R132). -/
theorem linesAfter_requestTrace_poll (hconn : c.rwPresent = true) (rs : Bit) (b : Byte) (reads : List Bit) (r : Bit)
    (l : Lines) :
    ∃ dl, linesAfter l (requestTrace c rs b (reads ++ [r])) = ⟨c.lvlCmd, c.lvlRead, c.lvlEIdle, dl⟩ := by
  have happend (l : Lines) (tr tr' : List Event) : linesAfter l (tr ++ tr') = linesAfter (linesAfter l tr) tr' :=
    List.foldl_append
  have hiteration (l : Lines) (r : Bit) : linesAfter l (pollIteration c r) = { l with e := c.lvlEIdle } := by
    unfold pollIteration
    cases c.busw <;> rfl
  have hpoll (l : Lines) : ∃ e, linesAfter l (pollTrace c reads) = ⟨c.lvlCmd, c.lvlRead, e, l.dl⟩ := by
    induction reads using List.reverseRecOn with
    | nil => exact ⟨_, rfl⟩
    | append_singleton reads r ih =>
      obtain ⟨e, he⟩ := ih
      exact ⟨_, by rw [pollTrace_concat, happend, he, hiteration]⟩
  obtain ⟨e, he⟩ := hpoll (linesAfter l (emitTrace c rs b))
  exact ⟨_, by rw [requestTrace_eq, settleTrace, if_pos hconn, pollTrace_concat, happend, happend, he, hiteration]⟩

/-- The request accepted in `s` has been answered in `t`, after a poll of `p + 1` reads. -/
structure AfterPoll (s : State) (rs : Bit) (b : Byte) (p : Nat) (t : State) : Prop where
  polled : Polled s p t
  idle : t.ph = .idle
  trace : t.trace = s.trace ++ requestTrace s.cfg rs b (busyAnswers s (p + 1))
  coreResponses : t.coreResponses = s.coreResponses ++ [t.res]
  lines : t.lines.rs = s.cfg.lvlCmd ∧ t.lines.rw = s.cfg.lvlRead ∧ t.lines.e = s.cfg.lvlEIdle

theorem Completed.afterPoll (h : Completed s rs b u) (hconn : s.cfg.rwPresent = true) :
    ∃ p, AfterPoll s rs b p (respondCore u) := by
  obtain ⟨-, ⟨htrace, hlines, -, hresp⟩, ⟨hno, -⟩ | ⟨-, p, hlt, hbusy, hpcnt, hbfs, hdoe, hres⟩⟩ := h
  · cases hno.symm.trans hconn
  · rw [hpcnt] at htrace hlines
    obtain ⟨dl, hdl⟩ := linesAfter_requestTrace_poll hconn rs b (busyAnswers s p) (busyAnswer s p) s.lines
    rw [busyAnswers_succ, hdl] at hlines
    exact ⟨p, ⟨hlt, hbusy, hpcnt, hbfs, hdoe, hres⟩, rfl, htrace, by simp [hresp], by simp [hlines]⟩

/-- If the operations of `n` iterations answer `ok`, and the poll comes to no more, the request is answered after its
poll. -/
theorem coreRequest_afterPoll {n : Nat} (h : Accepts s) (hconn : s.cfg.rwPresent = true)
    (hok : PinsAnswerOk (emitOps s.cfg + 2 + iterationOps s.cfg * n) s)
    (hn : ∀ p < s.cfg.pollMax, BusyUntil s p → p < n) (rs : Bit) (b : Byte) :
    ∃ p, AfterPoll s rs b p (coreRequest rs b s) := by
  obtain ⟨hpins, hanswers⟩ := hok
  obtain ⟨u, hrespond, hcompleted | ⟨-, -, p, before, e, hfails, -⟩⟩ := coreRequest_outcome h rs b
  · rw [hrespond]
    exact hcompleted.afterPoll hconn
  · have hlt : pinOperations before < emitOps s.cfg + 2 + iterationOps s.cfg * n := by
      have hle := hfails.pinOperations_le
      have hp : iterationOps s.cfg * (p + 1) ≤ iterationOps s.cfg * n :=
        Nat.mul_le_mul_left _ (hn p hfails.lt hfails.busy)
      have hone : pinOperations [failed e] = 1 := by
        simp [pinOperations, isPinOperation_failed, hfails.isPinOperation]
      rw [pinOperations_requestTrace, length_busyAnswers, if_pos hconn, pinOperations_append, hone] at hle
      omega
    cases (hfails.answer hpins).symm.trans (hanswers _ hlt)

/-- Settles O15: the poll ends with its first read that is not busy, which is number `k` and comes before the bound. -/
theorem busyPollEndsOk : Obligations.BusyPollEndsOk := by
  intro s rs b k haccepts hconn hk hok hbusy hfree
  have hfirst (p : Nat) (hp : BusyUntil s p) : p ≤ k := not_lt.mp fun hlt => hfree (hp k hlt)
  obtain ⟨p, hpolled, hidle, htrace, hresp, hrs, hrw, he⟩ :=
    coreRequest_afterPoll haccepts hconn hok (fun p _ hp => Nat.lt_succ_of_le (hfirst p hp)) rs b
  obtain ⟨rfl, hres⟩ : p = k ∧ (coreRequest rs b s).res = .ok := by
    rcases hpolled.res with ⟨hpfree, hres⟩ | ⟨hstill, hmax, -⟩
    · exact ⟨(hfirst p hpolled.busy).antisymm (not_lt.mp fun hlt => hpfree (hbusy p hlt)), hres⟩
    · have hmore := hfirst (p + 1) (busyUntil_succ_iff.mpr ⟨hpolled.busy, hstill⟩)
      omega
  rw [hpolled.busyAnswers_of_ok hres] at htrace
  rw [hres] at hresp
  exact ⟨_, exec_coreInstr_of_accepts haccepts rs b, htrace, hidle, hres, hresp, hpolled.pcnt,
    hpolled.bfs.trans (Bool.eq_not_of_ne hfree), hpolled.doe, hrs, hrw, he⟩

/-- Settles O16: the poll has no read that is not busy to end with, so it ends with the last one allowed. -/
theorem busyPollTimesOut : Obligations.BusyPollTimesOut := by
  intro s rs b haccepts hconn hok hbusy
  obtain ⟨p, ⟨hlt, -, hpcnt, -, hdoe, hend⟩, hidle, htrace, hresp, hrs, hrw, he⟩ :=
    coreRequest_afterPoll haccepts hconn hok (fun _ hp _ => hp) rs b
  obtain ⟨hmax, hres⟩ := (hend.resolve_left fun hfree => hfree.1 (hbusy p hlt)).2
  rw [hmax] at htrace hpcnt
  rw [busyAnswers_of_busyUntil hbusy] at htrace
  rw [hres] at hresp
  exact ⟨_, exec_coreInstr_of_accepts haccepts rs b, htrace, hidle, hres, hresp, hpcnt, hdoe, hrs, hrw, he⟩

end Sys2Proof.Machine
end

section
/-! PROOFS. Every step keeps the engine's invariant (spec/10_state.md R23 to R32, spec/42_address_cursor.md R140, R159):
the registers a phase asks for, then every phase, every core request, every front-end request, and the step. -/

namespace Sys2Proof.Machine

open Sys2Proof.Spec

variable {s t u : State}

/-! ## Operations -/

/-- Going to a phase keeps the invariant if the registers are as that phase asks. The clauses of which a phase asks
nothing are closed by the default arguments. -/
theorem EngineInv.goto {p : Phase} (h : EngineInv s) (hp : s.ph = p) (q : Phase)
    (hpoll : q.inTransfer = true → p.inTransfer = true := by decide)
    (hrw : q.needsRw = true → s.cfg.rwPresent = true := by nofun)
    (hdelay : q = .sDelay → s.cfg.rwPresent = false := by nofun)
    (hsecond : q.secondStrobe = true → s.cfg.busw = .four := by nofun)
    (hreleased : q.released = true → s.doe = false := by nofun)
    (hdriven : q.driven = true → s.doe = true := by nofun)
    (hfirst : q = .fRw → s.di = 0 := by nofun)
    (hdata : q = .fData → s.di ≠ 0 → s.doe = true := by nofun) : EngineInv (goto q s) :=
  { h with
    pollLeft := fun hq => h.pollLeft (hp ▸ hpoll hq), rwPhases := hrw, delayPhase := hdelay, secondStrobe := hsecond,
    released := hreleased, driven := hdriven, firstLine := hfirst, drivenData := hdata }

/-- Phase `q` asks for no clause of the invariant that `p` does not ask for. -/
abbrev Phase.AsksNoMore (p q : Phase) : Prop :=
  (q.inTransfer = true → p.inTransfer = true) ∧ (q.needsRw = true → p.needsRw = true) ∧
  (q.secondStrobe = true → p.secondStrobe = true) ∧ (q.released = true → p.released = true) ∧
  (q.driven = true → p.driven = true) ∧ q ≠ .sDelay ∧ q ≠ .fRw ∧ q ≠ .fData

theorem EngineInv.goto_of_asksNoMore {p q : Phase} (h : EngineInv s) (hp : s.ph = p) (hq : p.AsksNoMore q) :
    EngineInv (Machine.goto q s) := by
  subst hp
  obtain ⟨hpoll, hrw, hsecond, hreleased, hdriven, hdelay, hfirst, hdata⟩ := hq
  exact h.goto rfl q hpoll (h.rwPhases ∘ hrw) (absurd · hdelay) (h.secondStrobe ∘ hsecond) (h.released ∘ hreleased)
    (h.driven ∘ hdriven) (absurd · hfirst) (absurd · hdata)

/-- `DONE` asks for nothing but the registers in range, so a request may end anywhere with a core status. -/
theorem EngineInv.done {n : Nat} {r : Status} (h : EngineInv s) (hn : n ≤ s.cfg.pollMax) (hr : r.isCore = true) :
    EngineInv { s with pcnt := n, res := r, ph := .done } :=
  { h with
    pollCount := hn, result := hr, pollLeft := nofun, rwPhases := nofun, delayPhase := nofun, secondStrobe := nofun,
    released := nofun, driven := nofun, firstLine := nofun, drivenData := nofun }

theorem EngineInv.abort {r : Status} (h : EngineInv s) (hr : r.isCore = true) : EngineInv (abort r s) :=
  h.done h.pollCount hr

/-- The invariant does not speak of the lines or of the pins' answers. -/
theorem EngineInv.transaction (h : EngineInv s) (e : Event) (l : Lines) :
    EngineInv (Machine.logEvent e { popDraw s with lines := l }) := by
  unfold popDraw
  cases s.draws <;> exact { h with }

theorem EngineInv.pinWrite (h : EngineInv s) (id : PinId) (v : Bit) : EngineInv (pinWrite id v s).2 := by
  rcases pinWrite_cases id v s with ⟨-, e⟩ | ⟨-, e⟩ <;> rw [e] <;> exact h.transaction _ _

theorem EngineInv.pinRead (h : EngineInv s) (id : PinId) : EngineInv (pinRead id s).2 := by
  rcases pinRead_cases id s with ⟨-, e⟩ | ⟨-, e⟩ <;> rw [e] <;> exact h.transaction _ (popDraw s).lines

/-- A writing phase keeps the invariant if going on does. -/
theorem EngineInv.drive {id : PinId} {v : Bit} {next : State → State} (h : EngineInv s)
    (hnext : ∀ u, EngineInv u → u.ph = s.ph → u.doe = s.doe → EngineInv (next u)) :
    EngineInv (drive id v next s) := by
  rcases drive_cases id v next s with ⟨-, e⟩ | ⟨-, e⟩ <;> rw [e]
  · exact hnext _ (h.transaction _ _) (popDraw_ph s) (popDraw_doe s)
  · exact (h.transaction (.writeFailed id v) _).abort rfl

/-- A sampling phase likewise. -/
theorem EngineInv.sample {id : PinId} {next : Bit → State → State} (h : EngineInv s)
    (hnext : ∀ b u, EngineInv u → u.ph = s.ph → EngineInv (next b u)) : EngineInv (sample id next s) := by
  rcases sample_cases id next s with ⟨-, e⟩ | ⟨-, e⟩ <;> rw [e]
  · exact hnext _ _ (h.transaction _ (popDraw s).lines) (popDraw_ph s)
  · exact (h.transaction (.readFailed id) (popDraw s).lines).abort rfl

/-- A wait leaves the timer at 0. -/
theorem EngineInv.waitFor (h : EngineInv s) (w : WaitParam) : EngineInv (waitFor w s) := by
  rw [waitFor_eq]
  exact { h with timer := rfl }

theorem zero_lt_busLines (w : BusWidth) : 0 < busLines w := by cases w <;> decide

/-- At the first data line nothing is asked of the drivers. -/
theorem EngineInv.atFirstLine (h : EngineInv s) : EngineInv { s with di := 0 } :=
  { h with lineIndex := zero_lt_busLines _, firstLine := fun _ => rfl, drivenData := fun _ hdi => absurd rfl hdi }

/-! ## Phases -/

/-- Every phase keeps the invariant. -/
theorem phaseStep_engineInv (h : EngineInv s) : EngineInv (phaseStep s) := by
  unfold phaseStep
  cases hp : s.ph with dsimp only
  | idle => exact h
  | fRs =>
    refine h.drive fun u hu hph _ => ?_
    have hph : u.ph = .fRs := hph.trans hp
    split
    · next hconn => exact hu.atFirstLine.goto hph .fRw (hrw := fun _ => hconn) (hfirst := fun _ => rfl)
    · exact hu.atFirstLine.goto hph .fData (hdata := fun _ hdi => absurd rfl hdi)
  | fRw =>
    refine h.drive fun u hu hph _ => ?_
    have hph : u.ph = .fRw := hph.trans hp
    exact hu.goto hph .fData (hdata := fun _ hdi => absurd (hu.firstLine hph) hdi)
  | fData =>
    have henabled : EngineInv { s with doe := true } :=
      { h with released := by simp [hp, Phase.released], driven := fun _ => rfl, drivenData := fun _ _ => rfl }
    rw [phaseFData_eq (h.drivenData hp)]
    refine henabled.drive fun u hu hph hdoe => ?_
    have hph : u.ph = .fData := hph.trans hp
    unfold afterDataLine
    split
    · exact hu.goto hph .fSetup (hdriven := fun _ => hdoe)
    · next hne =>
      exact { hu with
        lineIndex := succ_lt_busLines hu.lineIndex hne, firstLine := by simp [hph], drivenData := fun _ _ => hdoe }
  | fEhi | fElo | pRw | pEhi | pElo | pEhi2 | pElo2 =>
    exact h.drive fun u hu hph _ => hu.goto_of_asksNoMore (hph.trans hp) (by decide)
  | fSetup | fPw | pSetup | pPw | pPw2 | pHold2 => exact (h.waitFor _).goto_of_asksNoMore hp (by decide)
  | fHold =>
    have hheld := h.waitFor .tH
    have hph : (waitFor .tH s).ph = .fHold := hp
    dsimp only [phaseFHold]
    split
    · next hfirst =>
      have hsecond : EngineInv { waitFor .tH s with nib := true, di := 0 } :=
        { hheld.atFirstLine with nibble := by simp [hfirst.1] }
      exact hsecond.goto hph .fData (hdata := fun _ hdi => absurd rfl hdi)
    · split
      · next hconn => exact hheld.goto hph .pRs (hrw := fun _ => hconn)
      · next hno => exact hheld.goto hph .sDelay (hdelay := fun _ => by simpa using hno)
  | sDelay =>
    rw [phaseSDelay_eq]
    exact { h.done h.pollCount (r := .ok) rfl with timer := rfl }
  | pRs =>
    have hreleased : EngineInv { s with doe := false } :=
      { h with released := fun _ => rfl, driven := by simp [hp, Phase.driven], drivenData := by simp [hp] }
    refine hreleased.drive fun u hu hph hdoe => ?_
    have hph : u.ph = .pRs := hph.trans hp
    exact hu.goto hph .pRw (hrw := fun _ => hu.rwPhases (by rw [hph]; rfl)) (hreleased := fun _ => hdoe)
  | pRead =>
    refine h.sample fun b u hu hph => ?_
    have hsampled : EngineInv { u with bfs := b } := { hu with }
    exact hsampled.goto_of_asksNoMore (hph.trans hp) (by decide)
  | pHold =>
    unfold phasePHold
    split
    · next hw =>
      exact (h.waitFor .tH).goto hp .pEhi2 (hrw := fun _ => h.rwPhases (by rw [hp]; rfl))
        (hsecond := fun _ => hw) (hreleased := fun _ => h.released (by rw [hp]; rfl))
    · exact (h.waitFor .tH).goto_of_asksNoMore hp (by decide)
  | pTest =>
    have hleft : s.pcnt < s.cfg.pollMax := h.pollLeft (by rw [hp]; rfl)
    rw [phasePTest_eq]
    split
    · exact h.done hleft rfl
    · split
      · exact h.done hleft rfl
      · next hmore =>
        have hcounted : EngineInv { s with pcnt := s.pcnt + 1 } :=
          { h with pollCount := hleft, pollLeft := fun _ => lt_of_le_of_ne hleft hmore }
        exact hcounted.goto_of_asksNoMore hp (by decide)
  | done =>
    have hresponded : EngineInv { s with coreResponses := s.coreResponses ++ [s.res] } :=
      { h with
        coreStatuses := fun r hr => (List.mem_append.mp hr).elim (h.coreStatuses r) fun hr => by
          rw [List.mem_singleton.mp hr]
          exact h.result }
    exact hresponded.goto_of_asksNoMore hp (by decide)

/-! ## Core requests -/

/-- Acceptance begins a transfer in `F_RS`, with the registers of R23 and R24 at 0. -/
theorem EngineInv.accept (h : EngineInv s) (rs : Bit) (b : Byte) : EngineInv (accept rs b s) :=
  { h with
    lineIndex := zero_lt_busLines _, nibble := fun _ => rfl, pollCount := Nat.zero_le _,
    pollLeft := fun _ => one_le_pollMax_of_legalConfig h.legal, rwPhases := nofun, delayPhase := nofun,
    secondStrobe := nofun, released := nofun, driven := nofun, firstLine := nofun, drivenData := nofun }

theorem EngineInv.countToRst (h : EngineInv s) : EngineInv (countToRst s) := { h with }

/-- The clauses about the core: the invariant with the front-end's state put aside, as it is after reset. They hold
while `INIT` is in progress too. -/
def CoreInv (s : State) : Prop := EngineInv (s.withFrontEnd ⟨.uninitialized, ⟨0, 0⟩, 0b000, []⟩)

/-- The invariant is that of the core and the three clauses about the front-end. -/
theorem engineInv_iff (s : State) : EngineInv s ↔ CoreInv s ∧
    (s.ist = .ready → s.cur.line.toNat < s.cfg.lines ∧ s.cur.col.toNat ≤ s.cfg.cols) ∧
    s.ist ≠ .initializing ∧ ∀ r ∈ s.feResponses, r.isFrontEnd = true := by
  constructor
  · intro h
    exact ⟨{ h with cursor := nofun, initSettled := nofun, feStatuses := nofun }, h.cursor, h.initSettled, h.feStatuses⟩
  · rintro ⟨hcore, hcursor, hsettled, hstatuses⟩
    exact { hcore with cursor := hcursor, initSettled := hsettled, feStatuses := hstatuses }

theorem EngineInv.coreInv (h : EngineInv s) : CoreInv s := ((engineInv_iff s).mp h).1

/-- A core request keeps the core's clauses, cut by `rst` or not, whatever the front-end's state. -/
theorem CoreInv.coreRequest (h : CoreInv s) (rs : Bit) (b : Byte) : CoreInv (coreRequest rs b s) := by
  rcases coreRequest_cases rs b s with ⟨-, e⟩ | ⟨-, e⟩ <;> rw [e]
  · exact h
  · refine runPhases_induction (P := CoreInv) (fun u _ hu => ?_) _ _ (EngineInv.accept h rs b)
    have hphase := phaseStep_engineInv hu
    rw [phaseStep_withFrontEnd] at hphase
    exact hphase.countToRst

/-- A core request leaves the front-end's state, so it keeps the whole invariant. -/
theorem EngineInv.coreRequest (h : EngineInv s) (rs : Bit) (b : Byte) : EngineInv (coreRequest rs b s) := by
  obtain ⟨hcfg, hist, hcur, -, hfe, -, -⟩ := (outsideCore_eq_iff _ _).mp (coreRequest_coreFrame rs b s).left
  obtain ⟨hcore, hfrontEnd⟩ := (engineInv_iff s).mp h
  refine (engineInv_iff _).mpr ⟨hcore.coreRequest rs b, ?_⟩
  rw [hcfg, hist, hcur, hfe]
  exact hfrontEnd

/-! ## The shared operations of the front-end -/

/-- A front-end request ends with a status of its port in a state that meets the invariant. -/
structure SoundResult (r : FeResult) : Prop where
  inv : EngineInv r.2
  status : r.1.isFrontEnd = true

/-- A request may end with the status of its core request. -/
theorem EngineInv.soundResult (h : EngineInv s) : SoundResult (s.res, s) :=
  ⟨h, Status.isFrontEnd_of_isCore h.result⟩

/-- The cursor at a place of the display, or right behind its line. -/
theorem EngineInv.withCursor (h : EngineInv s) {cur : Cursor}
    (hcur : cur.line.toNat < s.cfg.lines ∧ cur.col.toNat ≤ s.cfg.cols) : EngineInv { s with cur := cur } :=
  { h with cursor := fun _ => hcur }

/-- A display has 1 or 2 lines and at most 20 columns (spec/44_init_validation.md R170). -/
theorem geometry_of_legalConfig {c : Config} (h : legalConfig c = true) :
    0 < c.lines ∧ c.lines ≤ 2 ∧ c.cols ≤ 20 := by
  simp only [legalConfig, valid, validGeometry, Bool.and_eq_true, Bool.or_eq_true, beq_iff_eq] at h
  omega

theorem soundResult_tryCommand {cmd : Byte} {next : State → FeResult} (h : EngineInv s)
    (hnext : ∀ t, EngineInv t → t.cfg = s.cfg → SoundResult (next t)) : SoundResult (tryCommand cmd s next) := by
  have hafter := h.coreRequest false cmd
  dsimp only [tryCommand]
  split
  · exact hnext _ hafter (coreRequest_coreFrame false cmd s).cfg
  · exact hafter.soundResult

theorem soundResult_tryData {b : Byte} {next : State → FeResult} (h : EngineInv s)
    (hnext : ∀ t, EngineInv t → SoundResult (next t)) : SoundResult (tryData b s next) := by
  have hafter := h.coreRequest true b
  dsimp only [tryData]
  split
  · exact hnext _ hafter
  · exact hafter.soundResult

theorem soundResult_gate {next : State → FeResult} (h : EngineInv s) (hnext : SoundResult (next s)) :
    SoundResult (gate s next) := by
  unfold gate
  split
  · exact hnext
  · exact ⟨h, rfl⟩

theorem soundResult_ite_outOfBounds {p : Prop} [Decidable p] {r : FeResult} (h : EngineInv s)
    (hr : p → SoundResult r) : SoundResult (if p then r else (.outOfBounds, s)) := by
  split
  · next hp => exact hr hp
  · exact ⟨h, rfl⟩

/-- The string loop stops with `OK` on a full line, goes on after an `OK`, and stops with any other status (R147). -/
theorem putText_cons_cases (b : Byte) (rest : List Byte) (s : State) :
    (s.cfg.cols ≤ s.cur.col.toNat ∧ putText (b :: rest) s = (.ok, s)) ∨
    (s.cur.col.toNat < s.cfg.cols ∧ (coreRequest true b s).res = .ok ∧
      putText (b :: rest) s = putText rest (advance (coreRequest true b s))) ∨
    (s.cur.col.toNat < s.cfg.cols ∧ (coreRequest true b s).res ≠ .ok ∧
      putText (b :: rest) s = ((coreRequest true b s).res, coreRequest true b s)) := by
  by_cases hfull : s.cfg.cols ≤ s.cur.col.toNat
  · simp [putText, putByte, hfull]
  · cases hres : (coreRequest true b s).res <;> simp [putText, putByte, hfull, hres, Nat.lt_of_not_le hfull]

/-- `ADVANCE` saturates at `COLS` (R143). -/
theorem EngineInv.advance (h : EngineInv s) : EngineInv (advance s) := by
  unfold Machine.advance
  split
  · next hcol =>
    have hnext : (s.cur.col + 1).toNat ≤ s.cur.col.toNat + 1 := by
      rw [BitVec.toNat_add]
      exact Nat.mod_le _ _
    exact { h with cursor := fun hready => ⟨(h.cursor hready).1, hnext.trans hcol⟩ }
  · exact h

theorem soundResult_putChar (h : EngineInv s) (b : Byte) : SoundResult (putChar b s) := by
  have hafter := h.coreRequest true b
  unfold putChar
  rcases putByte_cases b s with e | e | e <;> rw [e]
  · exact ⟨h, rfl⟩
  · exact ⟨hafter.advance, rfl⟩
  · exact hafter.soundResult

theorem soundResult_putText (text : List Byte) (h : EngineInv s) : SoundResult (putText text s) := by
  induction text generalizing s with
  | nil => exact ⟨h, rfl⟩
  | cons b rest ih =>
    have hafter := h.coreRequest true b
    rcases putText_cons_cases b rest s with ⟨-, e⟩ | ⟨-, -, e⟩ | ⟨-, -, e⟩ <;> rw [e]
    · exact ⟨h, rfl⟩
    · exact ih hafter.advance
    · exact hafter.soundResult

/-- The range check puts the cursor inside the display: narrowing its operands does not enlarge them. -/
theorem soundResult_moveCursor {line col : Byte} {next : State → FeResult} (h : EngineInv s)
    (hnext : ∀ t, EngineInv t → SoundResult (next t)) : SoundResult (moveCursor line col s next) := by
  refine soundResult_ite_outOfBounds h fun hcell => soundResult_tryCommand h fun t ht hcfg => hnext _ (ht.withCursor ?_)
  simp only [cellInBounds, Bool.and_eq_true, decide_eq_true_eq, ← hcfg] at hcell
  obtain ⟨hline, hcol⟩ := hcell
  simp only [BitVec.toNat_setWidth]
  exact ⟨(Nat.mod_le _ _).trans_lt hline, (Nat.mod_le _ _).trans hcol.le⟩

theorem soundResult_resetCursor (cmd : Byte) (h : EngineInv s) :
    SoundResult (tryCommand cmd s fun t => (.ok, { t with cur := ⟨0, 0⟩ })) :=
  soundResult_tryCommand h fun _ ht _ => ⟨ht.withCursor ⟨(geometry_of_legalConfig ht.legal).1, Nat.zero_le _⟩, rfl⟩

theorem soundResult_sendDisplay (dcb : BitVec 3) (h : EngineInv s) : SoundResult (sendDisplay dcb s) :=
  soundResult_tryCommand h fun _ ht _ => ⟨{ ht with }, rfl⟩

theorem soundResult_sendBitmap {next : State → FeResult} (hnext : ∀ t, EngineInv t → SoundResult (next t))
    (bitmap : List Byte) (h : EngineInv s) : SoundResult (sendBitmap bitmap s next) := by
  induction bitmap generalizing s with
  | nil => exact hnext s h
  | cons b rest ih => exact soundResult_tryData h fun _ => ih

/-! ## The initialisation -/

/-- The commands of `INIT` keep the core's clauses, and the status is a core status or `OK`. -/
theorem sendCommands_coreInv (cmds : List Byte) (h : CoreInv s) :
    CoreInv (sendCommands cmds s).2 ∧ (sendCommands cmds s).1.isFrontEnd = true := by
  induction cmds generalizing s with
  | nil => exact ⟨h, rfl⟩
  | cons c rest ih =>
    have hafter := h.coreRequest false c
    dsimp only [sendCommands, tryCommand]
    split
    · exact ih hafter
    · exact ⟨hafter, Status.isFrontEnd_of_isCore hafter.result⟩

/-- `INIT` ends `Ready` with the cursor reset, or `Uninitialized`. -/
theorem soundResult_concludeInit {r : FeResult} (hcore : CoreInv r.2) (hstatus : r.1.isFrontEnd = true)
    (hstatuses : ∀ e ∈ r.2.feResponses, e.isFrontEnd = true) : SoundResult (concludeInit r) := by
  unfold concludeInit
  split
  · have hcursor : 0 < r.2.cfg.lines ∧ 0 ≤ r.2.cfg.cols := ⟨(geometry_of_legalConfig hcore.legal).1, Nat.zero_le _⟩
    exact ⟨{ hcore with cursor := fun _ => hcursor, initSettled := nofun, feStatuses := hstatuses }, rfl⟩
  · exact ⟨{ hcore with cursor := nofun, initSettled := nofun, feStatuses := hstatuses }, hstatus⟩

theorem soundResult_init (h : EngineInv s) :
    SoundResult (concludeInit (sendCommands (initCommands s.cfg) { s with ist := .initializing })) := by
  have hbegun : CoreInv { s with ist := .initializing } := h.coreInv
  obtain ⟨hcore, hstatus⟩ := sendCommands_coreInv (initCommands s.cfg) hbegun
  have hframe := (endsWithin_sendCommands (i := .init) (initCommands s.cfg) { s with ist := .initializing }).frame
  refine soundResult_concludeInit hcore hstatus ?_
  rw [hframe.feResponses]
  exact h.feStatuses

/-! ## The requests -/

/-- Presenting the status, unless `rst` cuts the request, keeps the invariant. -/
theorem engineInv_respondFrontEnd {r : FeResult} (h : SoundResult r) : EngineInv (respondFrontEnd r) := by
  rcases respondFrontEnd_cases r with ⟨-, e⟩ | ⟨-, e⟩ <;> rw [e]
  · exact h.inv
  · exact { h.inv with
      feStatuses := fun e he => (List.mem_append.mp he).elim (h.inv.feStatuses e) fun he =>
        List.mem_singleton.mp he ▸ h.status }

/-- Every front-end request is a body run by `frontEnd` that keeps the invariant. -/
theorem exec_eq_frontEnd_sound {i : Instr} (hi : gated i = true ∨ i = .init) (h : EngineInv s) :
    ∃ body, exec i s = frontEnd body s ∧ SoundResult (body s) := by
  unfold exec
  cases i with dsimp only
  | wrc | wrd | clrpin | setpin | readpin => rcases hi with hi | hi <;> cases hi
  | init => exact ⟨_, rfl, soundResult_init h⟩
  | wrchar ch => exact ⟨_, rfl, soundResult_gate h (soundResult_putChar h ch)⟩
  | wrstr text => exact ⟨_, rfl, soundResult_gate h (soundResult_putText text h)⟩
  | wrint v => exact ⟨_, rfl, soundResult_gate h (soundResult_putText (decimalText v) h)⟩
  | wrcharat line col ch =>
    exact ⟨_, rfl, soundResult_gate h (soundResult_moveCursor h fun _ ht => soundResult_putChar ht ch)⟩
  | wrstrat line col text =>
    exact ⟨_, rfl, soundResult_gate h (soundResult_moveCursor h fun _ => soundResult_putText text)⟩
  | setcursor line col => exact ⟨_, rfl, soundResult_gate h (soundResult_moveCursor h fun _ ht => ⟨ht, rfl⟩)⟩
  | clear | home => exact ⟨_, rfl, soundResult_gate h (soundResult_resetCursor _ h)⟩
  | shiftl | shiftr => exact ⟨_, rfl, soundResult_gate h (soundResult_tryCommand h fun _ ht _ => ⟨ht, rfl⟩)⟩
  | dispon | dispoff | curon | curoff | blinkon | blinkoff =>
    exact ⟨_, rfl, soundResult_gate h (soundResult_sendDisplay _ h)⟩
  | wrglyph index =>
    exact ⟨_, rfl, soundResult_gate h (soundResult_ite_outOfBounds h fun _ => soundResult_putChar h index)⟩
  | defglyph index bitmap =>
    refine ⟨_, rfl, soundResult_gate h (soundResult_ite_outOfBounds h fun _ =>
      soundResult_tryCommand h fun _ ht _ => soundResult_sendBitmap (fun _ hu => ?_) bitmap ht)⟩
    exact soundResult_tryCommand hu fun _ hv _ => ⟨hv, rfl⟩

theorem exec_frontEnd_engineInv {i : Instr} (hi : gated i = true ∨ i = .init) (hinv : EngineInv s)
    (h : exec i s = .next t) : EngineInv t := by
  obtain ⟨body, hbody, hsound⟩ := exec_eq_frontEnd_sound hi hinv
  obtain ⟨-, -, h⟩ := onIdleEngine_next (hbody ▸ h)
  split at h
  · rw [← Host.Outcome.next.inj h]
    exact engineInv_respondFrontEnd hsound
  · cases h

/-- A pin word keeps the invariant if its transaction does. -/
theorem pinTransaction_engineInv {id : PinId} {run : State → State} (hinv : EngineInv s) (hrun : EngineInv (run s))
    (h : pinTransaction id s run = .next t) : EngineInv t := by
  obtain ⟨-, h⟩ := onEngine_next h
  split at h
  · rw [← Host.Outcome.next.inj h]
    split
    · exact hinv
    · exact hrun
  · cases h

theorem EngineInv.pinAnswered (h : EngineInv s) (ok : Bool) : EngineInv (pinAnswered ok s) := by
  unfold Machine.pinAnswered
  split
  · exact h.abort rfl
  · exact h

/-- Every instruction keeps the invariant, cut by `rst` or not. -/
theorem exec_engineInv {i : Instr} (hinv : EngineInv s) (h : exec i s = .next t) : EngineInv t := by
  cases i with
  | wrc b =>
    obtain ⟨-, -, rfl⟩ := exec_coreInstr_next (rs := false) h
    exact hinv.coreRequest false b
  | wrd b =>
    obtain ⟨-, -, rfl⟩ := exec_coreInstr_next (rs := true) h
    exact hinv.coreRequest true b
  | clrpin id | setpin id =>
    unfold exec at h
    exact pinTransaction_engineInv hinv ((hinv.pinWrite id _).pinAnswered _) h
  | readpin id =>
    unfold exec at h
    exact pinTransaction_engineInv hinv ((hinv.pinRead id).pinAnswered _) h
  | init => exact exec_frontEnd_engineInv (.inr rfl) hinv h
  | _ => exact exec_frontEnd_engineInv (.inl rfl) hinv h

/-! ## The step -/

theorem runRequest_engineInv {r : Request} (hinv : EngineInv s) (h : runRequest r s = .next t) : EngineInv t := by
  unfold runRequest at h
  split at h
  · split at h
    · exact exec_engineInv hinv h
    · cases h
  · cases h

/-- `rst` leaves a reset engine with the statuses already presented. -/
theorem EngineInv.resetEngine (h : EngineInv s) : EngineInv (resetEngine s) :=
  { engineInv_resetOf h.legal [] [] 0 with coreStatuses := h.coreStatuses, feStatuses := h.feStatuses }

/-- The host's events and the count to `rst` are the model's own. -/
theorem EngineInv.withInputs (h : EngineInv s) (host : List HostEvent) (rstIn : Option Nat) :
    EngineInv { s with host := host, rstIn := rstIn } :=
  { h with }

/-- Settles O59: every phase, `rst` and every request keep the invariant, and a step is one of these. -/
theorem stepKeepsInvariant : Obligations.StepKeepsInvariant := by
  intro s t hinv h
  obtain ⟨-, h⟩ := onEngine_next h
  have hphase (h : Host.Outcome.next (phaseStep s) = (.next t : Host.Outcome State Fault Refusal)) : EngineInv t :=
    Host.Outcome.next.inj h ▸ phaseStep_engineInv hinv
  rcases hhost : s.host with _ | ⟨r | _ | ⟨r, k⟩, rest⟩ <;> simp only [hhost] at h
  · exact hphase h
  · split at h
    · exact runRequest_engineInv (hinv.withInputs rest none) h
    · exact hphase h
  · exact Host.Outcome.next.inj h ▸ (hinv.withInputs rest s.rstIn).resetEngine
  · split at h
    · obtain ⟨u, hu, rfl⟩ := thenReset_next h
      exact (runRequest_engineInv (hinv.withInputs rest (some k)) hu).resetEngine
    · exact hphase h

end Sys2Proof.Machine
end

section
/-! PROOFS. A front-end request on an accepting engine (spec/42_address_cursor.md R140 to R147, spec/60_exceptions.md
R197): its status is presented, a gated one answers `NotInitialized` unless `Ready`, one core request is issued at a
time, and the string loop is such a sequence. -/

namespace Sys2Proof.Machine

open Sys2Proof.Spec

variable {s t : State} {i : Instr} {rs : Bit} {b : Byte} {next : State → FeResult} {commit : State → State}

/-! ## Running and presenting -/

theorem coreRequest_ist (rs : Bit) (b : Byte) (s : State) : (coreRequest rs b s).ist = s.ist :=
  congrArg OutsideCore.ist (coreRequest_coreFrame rs b s).left

theorem accepts_coreRequest (h : Accepts s) (rs : Bit) (b : Byte) : Accepts (coreRequest rs b s) :=
  (requestFrame_coreRequest .init rs b s).accepts h

/-- Every front-end request but `INIT` begins with `GATE` (R140). -/
theorem exec_eq_gate (hi : gated i = true) : ∃ next, ∀ s, exec i s = frontEnd (fun t => gate t next) s := by
  cases i with
  | wrc | wrd | clrpin | setpin | readpin | init => cases hi
  | _ => exact ⟨_, fun _ => rfl⟩

theorem frontEnd_of_accepts (h : FrontEndAccepts s) (body : State → FeResult) :
    frontEnd body s = .next (respondFrontEnd (body s)) := by
  obtain ⟨⟨hlegal, hidle, -⟩, hfe⟩ := h
  simp [frontEnd, onIdleEngine_idle hlegal hidle, hfe]

/-- Before a successful `INIT` a gated request only answers `NotInitialized`. -/
theorem exec_of_not_ready (h : FrontEndAccepts s) (hi : gated i = true) (hist : s.ist ≠ .ready) :
    exec i s = .next (answer .notInitialized s) := by
  obtain ⟨next, hgate⟩ := exec_eq_gate hi
  rw [hgate, frontEnd_of_accepts h]
  simp [gate, hist, respondFrontEnd, cutOff_none h.1.2.2, answer]

/-- A `Ready` engine runs what follows the gate and presents its status: with no `rst` to come, none cuts it. -/
theorem exec_of_ready (h : FrontEndAccepts s) (hist : s.ist = .ready) (hi : gated i = true)
    (hexec : exec i s = frontEnd (fun t => gate t next) s) : exec i s = .next (answer (next s).1 (next s).2) := by
  have hrun : exec i s = .next (respondFrontEnd (next s)) := by
    rw [hexec, frontEnd_of_accepts h, gate, if_pos hist]
  have hrstIn (r : FeResult) : (respondFrontEnd r).rstIn = r.2.rstIn := by
    rcases respondFrontEnd_cases r with ⟨-, e⟩ | ⟨-, e⟩ <;> rw [e]
    rfl
  obtain ⟨r, hends, hr⟩ := exec_frontEnd_next (.inl hi) hrun
  have hnone : (next s).2.rstIn = none := by
    rw [← hrstIn, hr, hrstIn]
    exact (hends.frame.accepts h.1).2.2
  rw [hrun, respondFrontEnd, cutOff_none hnone]
  rfl

/-! ## One core request -/

/-- A request that ends as one core request does, but for what it commits after an `OK`. -/
theorem issuesOne_of_ready (h : FrontEndAccepts s) (hist : s.ist = .ready) (hi : gated i = true)
    (hexec : exec i s = frontEnd (fun t => gate t next) s)
    (hnext : next s = if (coreRequest rs b s).res = .ok then (.ok, commit (coreRequest rs b s))
      else ((coreRequest rs b s).res, coreRequest rs b s)) : IssuesOne i (coreInstr rs b) s commit := by
  refine ⟨_, exec_coreInstr_of_accepts h.1 rs b, ?_⟩
  rw [exec_of_ready h hist hi hexec, hnext]
  split <;> rfl

/-- If such a request presents `OK`, its core request ended `OK` and its effect is committed. -/
theorem committed_of_issuesOne (h : IssuesOne i (coreInstr rs b) s commit) (hexec : exec i s = .next t)
    (hok : t.feResponses = s.feResponses ++ [.ok]) :
    (coreRequest rs b s).res = .ok ∧ t = answer .ok (commit (coreRequest rs b s)) := by
  obtain ⟨u, hcore, hrequest⟩ := h
  obtain ⟨-, -, rfl⟩ := exec_coreInstr_next hcore
  obtain ⟨-, -, -, -, hfe, -, -⟩ := (outsideCore_eq_iff _ _).mp (coreRequest_coreFrame rs b s).left
  have ht := Host.Outcome.next.inj (hexec.symm.trans hrequest)
  split at ht
  · next hres => exact ⟨hres, ht⟩
  · next hres =>
    rw [ht, answer, hfe] at hok
    exact absurd (List.singleton_inj.mp (List.append_cancel_left hok)) hres

/-! ## The cursor -/

theorem cell_self (cur : Cursor) : cell cur.line.toNat cur.col.toNat = cur := by simp [cell]

/-- Narrowing a byte is reading it modulo the width. -/
theorem cell_toNat (line col : Byte) : cell line.toNat col.toNat = ⟨line.setWidth 1, col.setWidth 5⟩ := by simp [cell]

theorem cell_line_toNat {line : Nat} (h : line < 2) (col : Nat) : (cell line col).line.toNat = line :=
  Nat.mod_eq_of_lt h

theorem cell_col_toNat {col : Nat} (h : col < 32) (line : Nat) : (cell line col).col.toNat = col :=
  Nat.mod_eq_of_lt h

/-- One column on, if there is one (R143). -/
theorem advance_of_lt (h : s.cur.col.toNat < s.cfg.cols) :
    advance s = { s with cur := cell s.cur.line.toNat (s.cur.col.toNat + 1) } := by
  have hcur : cell s.cur.line.toNat (s.cur.col.toNat + 1) = { s.cur with col := s.cur.col + 1 } := by
    simp [cell, BitVec.ofNat_add]
  rw [hcur, advance, if_pos h]

/-- The core neither reads nor writes the cursor. -/
theorem coreRequest_withCursor (h : Accepts s) (rs : Bit) (b : Byte) (cur : Cursor) :
    coreRequest rs b { s with cur := cur } = { coreRequest rs b s with cur := cur } := by
  obtain ⟨-, hist, -, hdcb, hfe, -, -⟩ := (outsideCore_eq_iff _ _).mp (coreRequest_coreFrame rs b s).left
  refine (coreRequest_withFrontEnd (fe := ⟨s.ist, cur, s.dcb, s.feResponses⟩) h rs b).trans ?_
  rw [← hist, ← hdcb, ← hfe]
  rfl

theorem advance_coreRequest (h : s.cur.col.toNat < s.cfg.cols) (rs : Bit) (b : Byte) :
    advance (coreRequest rs b s) =
      { coreRequest rs b s with cur := cell s.cur.line.toNat (s.cur.col.toNat + 1) } := by
  obtain ⟨hcfg, -, hcur, -, -, -, -⟩ := (outsideCore_eq_iff _ _).mp (coreRequest_coreFrame rs b s).left
  rw [advance_of_lt (by rwa [hcfg, hcur]), hcur]

/-! ## Characters and strings -/

theorem putChar_of_full (h : s.cfg.cols ≤ s.cur.col.toNat) (b : Byte) : putChar b s = (.ok, s) := by
  simp [putChar, putByte, h]

theorem putChar_of_room (h : s.cur.col.toNat < s.cfg.cols) (b : Byte) : putChar b s =
    if (coreRequest true b s).res = .ok then
      (.ok, { coreRequest true b s with cur := cell s.cur.line.toNat (s.cur.col.toNat + 1) })
    else ((coreRequest true b s).res, coreRequest true b s) := by
  rw [← advance_coreRequest h]
  simp only [putChar, putByte, if_neg (Nat.not_le_of_lt h)]
  by_cases hres : (coreRequest true b s).res = .ok <;> simp [hres]

/-- A core request that ends `OK` is counted, and the next one follows it. -/
theorem issue_cons_of_ok {rest : List Instr} {n : Nat} {r : Status} {u : State} (h : Accepts s)
    (hok : (coreRequest rs b s).res = .ok) (hrest : issue rest (coreRequest rs b s) = some (n, r, u)) :
    issue (coreInstr rs b :: rest) s = some (n + 1, r, u) := by
  simp [issue, exec_coreInstr_of_accepts h, hok, hrest]

/-- A core request that does not end `OK` is the last one. -/
theorem issue_cons_of_failed (h : Accepts s) (hfailed : (coreRequest rs b s).res ≠ .ok) (rest : List Instr) :
    issue (coreInstr rs b :: rest) s = some (0, (coreRequest rs b s).res, coreRequest rs b s) := by
  simp [issue, exec_coreInstr_of_accepts h, hfailed]

/-- The string loop from a cursor issues the data writes of the bytes that fit behind it, and counts those written. The
writes are issued from `s` itself: the core does not see the cursor move. -/
theorem putText_withCursor (h : Accepts s) (text : List Byte) (cur : Cursor) :
    ∃ n r u, issue ((text.take (s.cfg.cols - cur.col.toNat)).map .wrd) s = some (n, r, u) ∧
      putText text { s with cur := cur } = (r, { u with cur := cell cur.line.toNat (cur.col.toNat + n) }) := by
  induction text generalizing s cur with
  | nil => exact ⟨0, .ok, s, by simp [issue], by rw [putText, Nat.add_zero, cell_self]⟩
  | cons b rest ih =>
    have hcore := coreRequest_withCursor h true b cur
    have hcfg := (coreRequest_coreFrame true b s).cfg
    rcases putText_cons_cases b rest { s with cur := cur } with ⟨hfull, e⟩ | ⟨hroom, hres, e⟩ | ⟨hroom, hres, e⟩
    · refine ⟨0, .ok, s, ?_, by rw [e, Nat.add_zero, cell_self]⟩
      rw [Nat.sub_eq_zero_of_le hfull, List.take_zero]
      rfl
    all_goals
      obtain ⟨k, hk⟩ : ∃ k, s.cfg.cols - cur.col.toNat = k + 1 := Nat.exists_eq_add_one.mpr (Nat.sub_pos_of_lt hroom)
      rw [hk, List.take_succ_cons, List.map_cons]
      rw [hcore] at hres
    · have hcol : (cell cur.line.toNat (cur.col.toNat + 1)).col.toNat = cur.col.toNat + 1 := by
        have := geometry_of_legalConfig h.1
        exact cell_col_toNat (by simp only at hroom; omega) _
      rw [advance_coreRequest hroom, hcore] at e
      obtain ⟨n, r, u, hissue, hput⟩ := ih (accepts_coreRequest h true b) (cell cur.line.toNat (cur.col.toNat + 1))
      refine ⟨n + 1, r, u, issue_cons_of_ok (rs := true) h hres ?_, ?_⟩
      · rwa [hcfg, hcol, ← Nat.sub_sub, hk] at hissue
      · rw [e, hput, hcol, cell_line_toNat cur.line.isLt, Nat.add_assoc, Nat.add_comm 1]
    · refine ⟨0, _, _, issue_cons_of_failed (rs := true) h hres _, ?_⟩
      rw [e, hcore, Nat.add_zero, cell_self]

/-- A request that ends as the string loop does writes its text. -/
theorem writesText_of_ready {s₀ : State} {text : List Byte} (h : FrontEndAccepts s₀) (hist : s₀.ist = .ready)
    (hi : gated i = true) (hexec : exec i s₀ = frontEnd (fun t => gate t next) s₀) (haccepts : Accepts s)
    (hnext : next s₀ = putText text s) : WritesText i s₀ s text := by
  obtain ⟨n, r, u, hissue, hput⟩ := putText_withCursor haccepts text s.cur
  refine ⟨n, r, u, hissue, ?_⟩
  rw [exec_of_ready h hist hi hexec, hnext, hput]

end Sys2Proof.Machine
end

section
/-! PROOFS. The requests of the address and cursor model (spec/42_address_cursor.md R141 to R158): addressing a cell,
then each request as the core requests it issues. -/

namespace Sys2Proof.Machine

open Sys2Proof.Spec

variable {s t : State} {i : Instr} {line col : Byte} {next : State → FeResult}

/-! ## Addressing a cell -/

theorem cmdSetDdram_eq : ∀ a : BitVec 7, cmdSetDdram a = BitVec.ofNat 8 (0x80 + a.toNat) := by decide

theorem cmdDisplay_eq : ∀ dcb : BitVec 3, cmdDisplay dcb = BitVec.ofNat 8 (0x08 + dcb.toNat) := by decide

/-- The command byte of a cell, in the naturals (R141). -/
theorem cmdSetDdram_ddramAddr (c : Config) (line col : Nat) :
    cmdSetDdram (ddramAddr c line col) = ddramCommand c line col := by
  rw [cmdSetDdram_eq, ddramAddr, BitVec.toNat_ofNat]
  rfl

/-- The range check of R142 fails. -/
theorem moveCursor_of_outside (h : s.cfg.lines ≤ line.toNat ∨ s.cfg.cols ≤ col.toNat) :
    moveCursor line col s next = (.outOfBounds, s) := by
  have hcell : ¬ cellInBounds s.cfg line col = true := by
    simp only [cellInBounds, Bool.and_eq_true, decide_eq_true_eq]
    omega
  rw [moveCursor, if_neg hcell]

/-- The state after the address command of a cell. -/
def addressed (line col : Byte) (s : State) : State := coreRequest false (ddramCommand s.cfg line.toNat col.toNat) s

/-- The state after `SETCURSOR` has placed the cursor (R142). -/
def positioned (line col : Byte) (s : State) : State :=
  { addressed line col s with cur := cell line.toNat col.toNat }

theorem exec_addressed (h : Accepts s) (line col : Byte) :
    exec (.wrc (ddramCommand s.cfg line.toNat col.toNat)) s = .next (addressed line col s) :=
  exec_coreInstr_of_accepts h false _

theorem accepts_positioned (h : Accepts s) (line col : Byte) : Accepts (positioned line col s) :=
  accepts_coreRequest h false _

theorem positioned_cfg (line col : Byte) (s : State) : (positioned line col s).cfg = s.cfg :=
  (coreRequest_coreFrame false _ s).cfg

/-- A cell of the display fits `CUR`. -/
theorem positioned_cur_toNat (hlegal : legalConfig s.cfg = true) (hline : line.toNat < s.cfg.lines)
    (hcol : col.toNat < s.cfg.cols) : (positioned line col s).cur.line.toNat = line.toNat ∧
      (positioned line col s).cur.col.toNat = col.toNat := by
  have hgeometry := geometry_of_legalConfig hlegal
  exact ⟨cell_line_toNat (by omega) _, cell_col_toNat (by omega) _⟩

/-- The range check holds: the address command, and after its `OK` the cursor is at the cell (R142). -/
theorem moveCursor_of_inside (hline : line.toNat < s.cfg.lines) (hcol : col.toNat < s.cfg.cols) :
    moveCursor line col s next =
      if (addressed line col s).res = .ok then next (positioned line col s)
      else ((addressed line col s).res, addressed line col s) := by
  have hcell : cellInBounds s.cfg line col = true := by simp [cellInBounds, hline, hcol]
  rw [moveCursor, if_pos hcell, cmdSetDdram_ddramAddr, positioned, cell_toNat]
  rfl

/-- A request that begins by placing the cursor answers `OutOfBounds` for a cell outside the display. -/
theorem exec_of_outside (h : FrontEndAccepts s) (hist : s.ist = .ready) (hi : gated i = true)
    (hexec : exec i s = frontEnd (fun t => gate t fun t => moveCursor line col t next) s)
    (hout : s.cfg.lines ≤ line.toNat ∨ s.cfg.cols ≤ col.toNat) : exec i s = .next (answer .outOfBounds s) := by
  rw [exec_of_ready h hist hi hexec, moveCursor_of_outside hout]

/-! ## Positioning and characters -/

theorem issuesOne_setcursor (h : FrontEndAccepts s) (hist : s.ist = .ready) (hline : line.toNat < s.cfg.lines)
    (hcol : col.toNat < s.cfg.cols) :
    IssuesOne (.setcursor line col) (coreInstr false (ddramCommand s.cfg line.toNat col.toNat)) s
      fun u => { u with cur := cell line.toNat col.toNat } :=
  issuesOne_of_ready h hist rfl rfl (moveCursor_of_inside hline hcol)

/-- Settles O40: after the gate and the range check `SETCURSOR` is one address command. -/
theorem setcursorMovesOnSuccess : Obligations.SetcursorMovesOnSuccess := by
  intro s line col h
  exact ⟨decodeOfEncodeIsIdentity (.setcursor line col) rfl, exec_of_not_ready h rfl,
    fun hist => exec_of_outside h hist rfl rfl, issuesOne_setcursor h⟩

theorem issuesOne_wrchar (h : FrontEndAccepts s) (ch : Byte) (hist : s.ist = .ready)
    (hroom : s.cur.col.toNat < s.cfg.cols) :
    IssuesOne (.wrchar ch) (coreInstr true ch) s
      fun u => { u with cur := cell s.cur.line.toNat (s.cur.col.toNat + 1) } :=
  issuesOne_of_ready h hist rfl rfl (putChar_of_room hroom ch)

/-- Settles O41: after the gate `WRCHAR` is `PUTBYTE`, whose `Full` is `OK`. -/
theorem wrcharWritesOrStaysFull : Obligations.WrcharWritesOrStaysFull := by
  intro s ch h
  refine ⟨decodeOfEncodeIsIdentity (.wrchar ch) rfl, exec_of_not_ready h rfl, fun hist hfull => ?_,
    issuesOne_wrchar h ch⟩
  rw [exec_of_ready h hist rfl rfl, putChar_of_full hfull]

/-- Settles O42: after the address command there is room at the cell, so `WRCHAR` writes there. -/
theorem wrcharatIsSetcursorThenWrchar : Obligations.WrcharatIsSetcursorThenWrchar := by
  intro s line col ch h
  refine ⟨decodeOfEncodeIsIdentity (.wrcharat line col ch) rfl, exec_of_not_ready h rfl,
    fun hist => exec_of_outside h hist rfl rfl, fun hist hline hcol => ?_⟩
  obtain ⟨hlineCur, hcolCur⟩ := positioned_cur_toNat h.1.1 hline hcol
  have hroom : (positioned line col s).cur.col.toNat < (positioned line col s).cfg.cols := by
    rwa [positioned_cfg, hcolCur]
  refine ⟨addressed line col s, exec_addressed h.1 line col, ?_⟩
  rw [exec_of_ready h hist rfl rfl, moveCursor_of_inside hline hcol]
  split
  · refine ⟨_, exec_coreInstr_of_accepts (rs := true) (accepts_positioned h.1 line col) ch, ?_⟩
    rw [putChar_of_room hroom, hlineCur, hcolCur]
    split <;> rfl
  · rfl

/-- Settles O54: `SETCURSOR` leaves the cursor at the cell, where there is room for `WRCHAR`; the column after the last
one still fits `CUR.col`. -/
theorem positionThenWriteAdvancesOne : Obligations.PositionThenWriteAdvancesOne := by
  intro s u t line col ch h hist hline hcol hposition hpositioned hwrite hwritten
  obtain ⟨-, hu⟩ := committed_of_issuesOne (issuesOne_setcursor h hist hline hcol) hposition hpositioned
  obtain rfl : u = answer .ok (positioned line col s) := hu
  obtain ⟨hlineCur, hcolCur⟩ := positioned_cur_toNat h.1.1 hline hcol
  have hcfg := positioned_cfg line col s
  have haccepts : FrontEndAccepts (answer .ok (positioned line col s)) :=
    ⟨accepts_positioned h.1 line col, hcfg ▸ h.2⟩
  have hready : (positioned line col s).ist = .ready := (coreRequest_ist false _ s).trans hist
  have hroom : (positioned line col s).cur.col.toNat < (positioned line col s).cfg.cols := by rwa [hcfg, hcolCur]
  obtain ⟨-, rfl⟩ := committed_of_issuesOne (issuesOne_wrchar haccepts ch hready hroom) hwrite hwritten
  have hfits : (positioned line col s).cur.col.toNat + 1 < 32 := by
    have := geometry_of_legalConfig h.1.1
    omega
  exact ⟨(cell_line_toNat (BitVec.isLt _) _).trans hlineCur,
    (cell_col_toNat hfits _).trans (congrArg (· + 1) hcolCur)⟩

/-! ## Strings -/

/-- A string of at most 255 bytes fits its `len` byte (spec/30_encoding.md R73). -/
theorem textFits_of_le {text : List Byte} (h : text.length ≤ 255) : textFits text = true := decide_eq_true h

/-- Settles O43: after the gate `WRSTR` is the string loop. -/
theorem wrstrTruncatesAtLineEnd : Obligations.WrstrTruncatesAtLineEnd := by
  intro s text h
  exact ⟨fun hlen => decodeOfEncodeIsIdentity (.wrstr text) (textFits_of_le hlen), exec_of_not_ready h rfl,
    fun hist => writesText_of_ready h hist rfl rfl h.1 rfl⟩

/-- Settles O44: after the address command `WRSTRAT` is the string loop from the cell. -/
theorem wrstratIsSetcursorThenWrstr : Obligations.WrstratIsSetcursorThenWrstr := by
  intro s line col text h
  refine ⟨fun hlen => decodeOfEncodeIsIdentity (.wrstrat line col text) (textFits_of_le hlen), exec_of_not_ready h rfl,
    fun hist => exec_of_outside h hist rfl rfl, fun hist hline hcol => ?_⟩
  refine ⟨addressed line col s, exec_addressed h.1 line col, ?_⟩
  split
  · next hres =>
    exact writesText_of_ready h hist rfl rfl (accepts_positioned h.1 line col)
      ((moveCursor_of_inside hline hcol).trans (if_pos hres))
  · next hres => rw [exec_of_ready h hist rfl rfl, moveCursor_of_inside hline hcol, if_neg hres]

/-! ## Clear, home and shifts -/

/-- A request that is one command issues it (spec/60_exceptions.md R197). -/
theorem issuesOne_command (h : FrontEndAccepts s) {cmd : Byte} {commit : State → State} (hi : gated i = true)
    (hexec : exec i s = frontEnd (fun t => gate t fun t => tryCommand cmd t fun t => (.ok, commit t)) s)
    (hist : s.ist = .ready) : IssuesOne i (coreInstr false cmd) s commit :=
  issuesOne_of_ready h hist hi hexec rfl

/-- Without a read/write line a transfer that ended `OK` ended with its fixed delay (spec/41_transfer_sequencer.md
R114), which is long for a command of `LONG_CMD`. -/
theorem coreRequest_ends_with_tLong {b : Byte} (h : Accepts s) (hno : s.cfg.rwPresent = false)
    (hlong : longCmd s.cfg b = true) (hok : (coreRequest false b s).res = .ok) :
    (coreRequest false b s).trace.getLast? = some (.waited .tLong) := by
  obtain ⟨u, hrespond, hcompleted | hfaulted⟩ := coreRequest_outcome h false b
  · rw [hrespond, respondCore_trace, hcompleted.performs.trace, requestTrace_fixedDelay hno, settleWait, hlong]
    simp
  · rw [hrespond] at hok
    cases hok.symm.trans hfaulted.res

theorem longCmd_of_legalConfig {c : Config} (h : legalConfig c = true) :
    longCmd c cmdClear = true ∧ longCmd c cmdHome = true := by
  simp only [legalConfig, parametersInRange, Bool.and_eq_true] at h
  tauto

/-- Settles O45: `CLEAR` and `HOME` are one command, which is in `LONG_CMD`. -/
theorem clearAndHomeResetCursor : Obligations.ClearAndHomeResetCursor := by
  intro s h
  have hclear := issuesOne_command (i := .clear) h rfl rfl
  have hhome := issuesOne_command (i := .home) h rfl rfl
  refine ⟨rfl, rfl, fun hist => ⟨exec_of_not_ready h rfl hist, exec_of_not_ready h rfl hist⟩,
    fun hist => ⟨hclear hist, hhome hist⟩, fun t i hi hno hist hexec hok => ?_⟩
  obtain ⟨hlongClear, hlongHome⟩ := longCmd_of_legalConfig h.1.1
  rcases hi with rfl | rfl
  · obtain ⟨hres, rfl⟩ := committed_of_issuesOne (hclear hist) hexec hok
    exact coreRequest_ends_with_tLong h.1 hno hlongClear hres
  · obtain ⟨hres, rfl⟩ := committed_of_issuesOne (hhome hist) hexec hok
    exact coreRequest_ends_with_tLong h.1 hno hlongHome hres

/-- Settles O46: `SHIFTL` and `SHIFTR` are one command and commit nothing. -/
theorem shiftsLeaveCursor : Obligations.ShiftsLeaveCursor := by
  intro s h
  exact ⟨rfl, rfl, fun hist => ⟨exec_of_not_ready h rfl hist, exec_of_not_ready h rfl hist⟩,
    fun hist => ⟨issuesOne_command (i := .shiftl) h rfl rfl hist, issuesOne_command (i := .shiftr) h rfl rfl hist⟩⟩

/-! ## Display control -/

/-- The six display-control requests send the command of their new `DCB`. -/
theorem exec_of_newDcb {n : BitVec 3} (hn : newDcb s.dcb i = some n) :
    gated i = true ∧ exec i s = frontEnd (fun t => gate t (sendDisplay n)) s := by
  cases i with
  | dispon | dispoff | curon | curoff | blinkon | blinkoff =>
    cases hn
    exact ⟨rfl, rfl⟩
  | _ => cases hn

/-- Settles O47: such a request is one command, after which the shadow is committed. -/
theorem displayRequestsCommitShadow : Obligations.DisplayRequestsCommitShadow := by
  refine ⟨⟨rfl, rfl, rfl, rfl, rfl, rfl⟩, fun s i n h hn => ?_⟩
  obtain ⟨hi, hexec⟩ := exec_of_newDcb hn
  rw [← cmdDisplay_eq]
  exact ⟨exec_of_not_ready h hi, issuesOne_command h hi hexec⟩

end Sys2Proof.Machine
end

section
/-! PROOFS. The requests of the glyph and formatting layer (spec/43_glyph_format.md R160 to R164): the range check of a
slot, `DEFGLYPH` as the core requests it issues, and the decimal text. -/

namespace Sys2Proof.Machine

open Sys2Proof.Spec

variable {s : State} {i : Instr} {index : Byte} {next : State → FeResult}

/-! ## The slot index -/

theorem glyphInBounds_iff : glyphInBounds index = true ↔ index.toNat ≤ 7 := decide_eq_true_iff

/-- A request that begins with the range check of a slot answers `OutOfBounds` for an index above 7. -/
theorem exec_of_slot_outside (h : FrontEndAccepts s) (hi : gated i = true)
    (hexec : exec i s =
      frontEnd (fun t => gate t fun t => if glyphInBounds index then next t else (.outOfBounds, t)) s)
    (hist : s.ist = .ready) (hout : 7 < index.toNat) : exec i s = .next (answer .outOfBounds s) := by
  rw [exec_of_ready h hist hi hexec, if_neg (mt glyphInBounds_iff.mp (Nat.not_le_of_lt hout))]

/-- Settles O49: after the gate and the range check `WRGLYPH` is `PUTBYTE` of the index, as `WRCHAR` is. -/
theorem wrglyphWritesSlotCode : Obligations.WrglyphWritesSlotCode := by
  intro s index h
  refine ⟨decodeOfEncodeIsIdentity (.wrglyph index) rfl, exec_of_not_ready h rfl, exec_of_slot_outside h rfl rfl,
    fun hist hin hfull => ?_, fun hist hin hroom => ?_⟩
  · rw [exec_of_ready h hist rfl rfl, if_pos (glyphInBounds_iff.mpr hin), putChar_of_full hfull]
  · exact issuesOne_of_ready (rs := true) h hist rfl rfl
      ((if_pos (glyphInBounds_iff.mpr hin)).trans (putChar_of_room hroom index))

/-! ## A glyph as a sequence of core requests -/

/-- The outcome of a request is that of issuing these core requests until one does not end `OK`. -/
def Issues (cores : List Instr) (s : State) (r : FeResult) : Prop := ∃ n, issue cores s = some (n, r.1, r.2)

theorem issues_nil (s : State) : Issues [] s (.ok, s) := ⟨0, rfl⟩

/-- `tryCommand` and `tryData` issue their core request first, and the rest after its `OK` only (R197). -/
theorem issues_cons {rs : Bit} {b : Byte} {rest : List Instr} {r : FeResult} (h : Accepts s)
    (hrest : Issues rest (coreRequest rs b s) r) :
    Issues (coreInstr rs b :: rest) s
      (if (coreRequest rs b s).res = .ok then r else ((coreRequest rs b s).res, coreRequest rs b s)) := by
  split
  · next hok =>
    obtain ⟨n, hissue⟩ := hrest
    exact ⟨n + 1, issue_cons_of_ok h hok hissue⟩
  · next hfailed => exact ⟨0, issue_cons_of_failed h hfailed rest⟩

/-- The bitmap is one data write per byte; what follows it starts from an accepting engine that only the core has run. -/
theorem issues_sendBitmap {rest : List Instr} (h : Accepts s) (bitmap : List Byte)
    (hnext : ∀ t, Accepts t → CoreFrame s t → Issues rest t (next t)) :
    Issues (bitmap.map .wrd ++ rest) s (sendBitmap bitmap s next) := by
  induction bitmap generalizing s with
  | nil => exact hnext s h (.refl s)
  | cons b bytes ih =>
    refine issues_cons (rs := true) h (ih (accepts_coreRequest h true b) fun t ht hframe => ?_)
    exact hnext t ht ((coreRequest_coreFrame true b s).trans hframe)

/-- The last command addresses the cell of a cursor that the core requests before it have left alone (R141, R164). -/
theorem issues_restoringAddress {t : State} (h : Accepts t) (hframe : CoreFrame s t) :
    Issues [.wrc (ddramCommand s.cfg s.cur.line.toNat s.cur.col.toNat)] t
      (tryCommand (cmdSetDdram (ddramAddr t.cfg t.cur.line.toNat t.cur.col.toNat)) t fun u => (.ok, u)) := by
  have hcur : t.cur = s.cur := congrArg OutsideCore.cur hframe.left
  rw [cmdSetDdram_ddramAddr, hframe.cfg, hcur]
  exact issues_cons (rs := false) h (issues_nil _)

theorem cmdSetCgram_eq : ∀ a : BitVec 6, cmdSetCgram a = BitVec.ofNat 8 (0x40 + a.toNat) := by decide

/-- The command byte of a slot, in the naturals (R160). -/
theorem cmdSetCgram_glyphAddr (hin : index.toNat ≤ 7) :
    cmdSetCgram (glyphAddr index) = BitVec.ofNat 8 (0x40 + index.toNat * 8) := by
  rw [cmdSetCgram_eq, glyphAddr, BitVec.toNat_ofNat, Nat.mod_eq_of_lt (by omega)]

/-- Settles O48: after the gate and the range check `DEFGLYPH` issues these requests, none of which moves the cursor. -/
theorem defglyphWritesSlotAndRestores : Obligations.DefglyphWritesSlotAndRestores := by
  intro s index bitmap h hlength
  refine ⟨decodeOfEncodeIsIdentity (.defglyph index bitmap) (beq_iff_eq.mpr hlength), exec_of_not_ready h rfl,
    exec_of_slot_outside h rfl rfl, fun hist hin => ?_⟩
  rw [exec_of_ready h hist rfl rfl, if_pos (glyphInBounds_iff.mpr hin), cmdSetCgram_glyphAddr hin]
  have hslot := coreRequest_coreFrame false (BitVec.ofNat 8 (0x40 + index.toNat * 8)) s
  obtain ⟨n, hissue⟩ := issues_cons (rs := false) h.1 (issues_sendBitmap (accepts_coreRequest h.1 _ _) bitmap
    fun _ ht hframe => issues_restoringAddress ht (hslot.trans hframe))
  exact ⟨n, _, _, hissue, rfl⟩

/-! ## Decimal text -/

/-- The four bytes of the operand, most significant first, in the naturals (R54). -/
theorem encode_wrint_toNat (v : BitVec 32) : encode (.wrint v) =
    .fe [0x12, BitVec.ofNat 8 (v.toNat / 2 ^ 24), BitVec.ofNat 8 (v.toNat / 2 ^ 16),
      BitVec.ofNat 8 (v.toNat / 2 ^ 8), BitVec.ofNat 8 v.toNat] := by
  simp only [encode, BitVec.extractLsb', Nat.shiftRight_eq_div_pow, Nat.pow_zero, Nat.div_one]

/-- Settles O50: after the gate `WRINT` is the string loop. -/
theorem wrintWritesDecimalText : Obligations.WrintWritesDecimalText := by
  intro s v h
  exact ⟨decode_eq_some_iff.mpr ⟨rfl, encode_wrint_toNat v⟩, exec_of_not_ready h rfl,
    fun hist => writesText_of_ready h hist rfl rfl h.1 rfl⟩

theorem decimalDigits_succ_ne_nil (fuel m : Nat) : decimalDigits (fuel + 1) m ≠ [] := by
  rw [decimalDigits]
  split <;> simp

theorem length_decimalDigits_le (fuel m : Nat) : (decimalDigits fuel m).length ≤ fuel := by
  fun_induction decimalDigits fuel m with
  | case1 => exact Nat.le_refl 0
  | case2 => simp
  | case3 fuel m _ ih => simpa using ih

/-- The byte of a digit is its value above `'0'`. -/
theorem toNat_digit {d : Nat} (h : d < 10) : (BitVec.ofNat 8 (0x30 + d)).toNat = 0x30 + d :=
  Nat.mod_eq_of_lt (by omega)

theorem decimalDigits_are_digits (fuel m : Nat) : ∀ d ∈ decimalDigits fuel m, 0x30 ≤ d.toNat ∧ d.toNat ≤ 0x39 := by
  have hdigit {d : Nat} (h : d < 10) :
      0x30 ≤ (BitVec.ofNat 8 (0x30 + d)).toNat ∧ (BitVec.ofNat 8 (0x30 + d)).toNat ≤ 0x39 := by
    rw [toNat_digit h]
    omega
  fun_induction decimalDigits fuel m with
  | case1 => simp
  | case2 fuel m hm => simpa using hdigit hm
  | case3 fuel m _ ih =>
    intro d hd
    rcases List.mem_append.mp hd with hd | hd
    · exact ih d hd
    · rw [List.mem_singleton.mp hd]
      exact hdigit (Nat.mod_lt m (by decide))

/-- One more digit at the end. -/
theorem digitsValue_concat (ds : List Byte) {d : Nat} (h : d < 10) :
    digitsValue (ds ++ [BitVec.ofNat 8 (0x30 + d)]) = 10 * digitsValue ds + d := by
  rw [digitsValue, List.foldl_append, List.foldl_cons, List.foldl_nil, toNat_digit h, Nat.add_sub_cancel_left]
  rfl

/-- Ten to the fuel bounds the numbers it is enough for. -/
theorem digitsValue_decimalDigits {fuel m : Nat} (h : m < 10 ^ fuel) : digitsValue (decimalDigits fuel m) = m := by
  fun_induction decimalDigits fuel m with
  | case1 m => exact (Nat.lt_one_iff.mp h).symm
  | case2 fuel m hm => simpa [digitsValue] using digitsValue_concat [] hm
  | case3 fuel m _ ih =>
    rw [digitsValue_concat _ (Nat.mod_lt m (by decide)), ih (by omega), Nat.div_add_mod]

/-- No leading zeros: only 0 itself begins with `'0'`. -/
theorem eq_zero_of_head?_decimalDigits {fuel m : Nat} (h : m < 10 ^ fuel)
    (hhead : (decimalDigits fuel m).head? = some 0x30) : m = 0 := by
  fun_induction decimalDigits fuel m with
  | case1 => cases hhead
  | case2 fuel m hm =>
    have hbyte : (BitVec.ofNat 8 (0x30 + m)).toNat = 0x30 := congrArg BitVec.toNat (Option.some.inj hhead)
    rw [toNat_digit hm] at hbyte
    omega
  | case3 fuel m hm ih =>
    have hquot : m / 10 < 10 ^ fuel := by omega
    obtain ⟨fuel, rfl⟩ : ∃ k, fuel = k + 1 := by
      refine Nat.exists_eq_add_one.mpr (Nat.pos_of_ne_zero fun hzero => ?_)
      rw [hzero] at hquot
      omega
    rw [List.head?_append_of_ne_nil _ (decimalDigits_succ_ne_nil fuel _)] at hhead
    have := ih hquot hhead
    omega

/-- The magnitude of a 32-bit number has at most ten digits. -/
theorem natAbs_toInt_lt (v : BitVec 32) : v.toInt.natAbs < 10 ^ 10 := by
  have hlow := BitVec.le_toInt v
  have hhigh := BitVec.toInt_lt (x := v)
  omega

/-- Settles O51: the digits are those of the magnitude, for which ten are enough. -/
theorem decimalTextIsRight : Obligations.DecimalTextIsRight := by
  intro v
  have hbound := natAbs_toInt_lt v
  refine ⟨decimalDigits 10 v.toInt.natAbs, rfl, decimalDigits_succ_ne_nil 9 _, decimalDigits_are_digits 10 _,
    fun hhead => ?_, digitsValue_decimalDigits hbound, ?_⟩
  · rw [eq_zero_of_head?_decimalDigits hbound hhead]
    rfl
  · have hlength := length_decimalDigits_le 10 v.toInt.natAbs
    have hsign : (if v.toInt < 0 then [0x2D] else [] : List Byte).length ≤ 1 := by split <;> decide
    rw [decimalText, List.length_append]
    omega

end Sys2Proof.Machine
end

section
/-! PROOFS. Static validation (spec/44_init_validation.md R170, R171): V1 to V6 and the ranges in plain terms, and that
nothing is constructed or run for a configuration outside them. -/

namespace Sys2Proof.Machine

variable {s : State}

/-! ## V1 to V6 and the ranges -/

/-- V2: the three top bits of a byte are its quotient by 32. -/
theorem validFunctionSet_iff (c : Config) : validFunctionSet c = true ↔ c.funcsetCmd.toNat / 32 = 1 := by
  have hlt : c.funcsetCmd.toNat / 32 < 8 := by omega
  rw [validFunctionSet, beq_iff_eq, ← BitVec.toNat_inj, BitVec.extractLsb'_toNat, Nat.shiftRight_eq_div_pow,
    Nat.mod_eq_of_lt hlt]
  rfl

/-- A bit that says whether two values are equal. -/
theorem bit_beq_beq_iff {α : Type} [BEq α] [LawfulBEq α] (bit : Bit) (a b : α) :
    (bit == (a == b)) = true ↔ (bit = true ↔ a = b) := by
  rw [beq_iff_eq, Bool.eq_iff_iff, beq_iff_eq]

theorem validBusWidthBit_iff (c : Config) :
    validBusWidthBit c = true ↔ (c.funcsetCmd.getLsbD 4 = true ↔ c.busw = .eight) := bit_beq_beq_iff _ _ _

theorem validLineCountBit_iff (c : Config) :
    validLineCountBit c = true ↔ (c.funcsetCmd.getLsbD 3 = true ↔ c.lines = 2) := bit_beq_beq_iff _ _ _

/-- V1 to V6 (R170). -/
theorem valid_iff (c : Config) : valid c = true ↔
    (c.lines = 1 ∨ c.lines = 2) ∧ (c.cols = 8 ∨ c.cols = 16 ∨ c.cols = 20) ∧
      c.funcsetCmd.toNat / 32 = 1 ∧ (c.funcsetCmd.getLsbD 4 = true ↔ c.busw = .eight) ∧
      (c.funcsetCmd.getLsbD 3 = true ↔ c.lines = 2) ∧ c.entryCmd ∈ c.entrySet ∧ c.displayCmd ∈ c.displaySet := by
  simp only [valid, Bool.and_eq_true, validGeometry, Bool.or_eq_true, beq_iff_eq, validFunctionSet_iff,
    validBusWidthBit_iff, validLineCountBit_iff, validEntryCmd, validDisplayCmd, List.contains_iff_mem, and_assoc,
    or_assoc]

/-- The ranges beside V1 to V6 (log 13). -/
theorem parametersInRange_iff (c : Config) : parametersInRange c = true ↔
    1 ≤ c.pollMax ∧ c.tShort < c.tLong ∧ c.lineOffset.length = c.lines ∧ 0x01 ∈ c.longCmd ∧
      0x02 ∈ c.longCmd ∧ c.lvlCmd ≠ c.lvlData ∧ c.lvlWrite ≠ c.lvlRead ∧ c.lvlEAct ≠ c.lvlEIdle := by
  simp only [parametersInRange, longCmd, Bool.and_eq_true, decide_eq_true_eq, beq_iff_eq, bne_iff_ne,
    List.contains_iff_mem, and_assoc]

/-- A function-set command is `0x20`, its bus-width and line-count bits, and three free bits. -/
theorem functionSet_toNat {b : Byte} (h : b.toNat / 32 = 1) :
    ∃ low ≤ 7, b.toNat = 0x20 + 16 * (b.getLsbD 4).toNat + 8 * (b.getLsbD 3).toNat + low := by
  have hbit (k : Nat) : (b.getLsbD k).toNat = b.toNat / 2 ^ k % 2 := Nat.toNat_testBit b.toNat k
  refine ⟨b.toNat % 8, by omega, ?_⟩
  rw [hbit, hbit]
  omega

/-- Settles O4: V3 and V4 fix the two bits by the bus width and the line count. -/
theorem validFunctionSetRanges : Obligations.ValidFunctionSetRanges := by
  intro c hvalid
  obtain ⟨-, -, hclass, hwidth, hcount, -, -⟩ := (valid_iff c).mp hvalid
  obtain ⟨low, hlow, hcmd⟩ := functionSet_toNat hclass
  have hwidthBit : c.funcsetCmd.getLsbD 4 = decide (c.busw = .eight) := by
    rw [Bool.eq_iff_iff, hwidth, decide_eq_true_iff]
  have hcountBit : c.funcsetCmd.getLsbD 3 = decide (c.lines = 2) := by
    rw [Bool.eq_iff_iff, hcount, decide_eq_true_iff]
  rw [hwidthBit, hcountBit] at hcmd
  refine ⟨fun hw hl => ?_, fun hw hl => ?_, fun hw hl => ?_, fun hw hl => ?_⟩ <;> simp [hw, hl] at hcmd <;> omega

/-! ## Nothing runs on an engine that is not there -/

theorem onEngine_invalid (h : ¬ valid s.cfg = true) (run : Host.Outcome State Fault Refusal) :
    onEngine s run = .fault .invalidConfiguration :=
  if_neg h

theorem onEngine_outsideSpec (hvalid : valid s.cfg = true) (h : ¬ parametersInRange s.cfg = true)
    (run : Host.Outcome State Fault Refusal) : onEngine s run = .refused .configurationOutsideSpec :=
  (if_pos hvalid).trans (if_neg h)

/-- Every instruction asks first whether there is an engine. -/
theorem exec_eq_onEngine (i : Instr) (s : State) : ∃ run, exec i s = onEngine s run := by
  cases i <;> exact ⟨_, rfl⟩

/-- What an absent engine answers to every run, `step` and every instruction answer. -/
theorem step_and_exec_of_onEngine {o : Host.Outcome State Fault Refusal} (h : ∀ run, onEngine s run = o) (i : Instr) :
    step s = o ∧ exec i s = o := by
  obtain ⟨run, hrun⟩ := exec_eq_onEngine i s
  exact ⟨h _, hrun.trans (h run)⟩

/-- Settles O3: construction, `step` and `exec` test V1 to V6, then the ranges. -/
theorem constructionFollowsValidation : Obligations.ConstructionFollowsValidation := by
  intro c v ranges
  have hv : valid c = true ↔ v := valid_iff c
  have hranges : parametersInRange c = true ↔ ranges := parametersInRange_iff c
  rw [← hv, ← hranges]
  refine ⟨fun hinvalid => ⟨if_neg hinvalid, ?_⟩, fun hvalid hrange => ?_, fun hvalid hrange => ⟨?_, ?_⟩⟩
  · rintro s i rfl
    exact step_and_exec_of_onEngine (onEngine_invalid hinvalid) i
  · rw [construct, if_pos hvalid, if_pos hrange]
  · rw [construct, if_pos hvalid, if_neg hrange]
  · rintro s i rfl
    exact step_and_exec_of_onEngine (onEngine_outsideSpec hvalid hrange) i

end Sys2Proof.Machine
end

section
/-! PROOFS. The initialisation (spec/44_init_validation.md R172 to R174): `INIT` as the core requests it issues, and
what keeps `IST`. -/

namespace Sys2Proof.Machine

open Sys2Proof.Spec

variable {s t : State} {i : Instr}

/-! ## The five commands -/

/-- The commands of `INIT` are one command request each (R173). -/
theorem issues_sendCommands (h : Accepts s) (cmds : List Byte) : Issues (cmds.map .wrc) s (sendCommands cmds s) := by
  induction cmds generalizing s with
  | nil => exact issues_nil s
  | cons c rest ih => exact issues_cons (rs := false) h (ih (accepts_coreRequest h false c))

/-- A request with no `rst` to come presents its status. -/
theorem respondFrontEnd_of_rstIn_none {r : FeResult} (h : r.2.rstIn = none) :
    respondFrontEnd r = answer r.1 r.2 := by
  rw [respondFrontEnd, cutOff_none h]
  rfl

theorem exec_init_of_accepts (h : FrontEndAccepts s) : exec .init s = .next (respondFrontEnd
    (concludeInit (sendCommands (initCommands s.cfg) { s with ist := .initializing }))) := by
  change execInit s = _
  rw [execInit, frontEnd_of_accepts h]

/-- What `INIT` presents after its commands, with no `rst` to come (R173, R174). -/
theorem respondFrontEnd_concludeInit {c : Config} {r : FeResult} (hcfg : r.2.cfg = c) (h : r.2.rstIn = none) :
    respondFrontEnd (concludeInit r) =
      if r.1 = .ok then answer .ok { r.2 with ist := .ready, cur := ⟨0, 0⟩, dcb := c.displayCmd.extractLsb' 0 3 }
      else answer r.1 { r.2 with ist := .uninitialized } := by
  rw [← hcfg, concludeInit, BitVec.setWidth_eq_extractLsb' (by decide)]
  split <;> exact respondFrontEnd_of_rstIn_none h

/-- Settles O52: `INIT` issues its five commands while `Initializing` and presents what they end with; they leave the
configuration as it is. -/
theorem initIssuesFiveCommands : Obligations.InitIssuesFiveCommands := by
  intro s h
  have hbegun : Accepts { s with ist := .initializing } := h.1
  obtain ⟨n, hissue⟩ := issues_sendCommands hbegun (initCommands s.cfg)
  have hframe := (endsWithin_sendCommands (i := .init) (initCommands s.cfg) { s with ist := .initializing }).frame
  obtain ⟨-, -, hnone⟩ := hframe.accepts hbegun
  refine ⟨rfl, n, _, _, hissue, ?_⟩
  rw [exec_init_of_accepts h, respondFrontEnd_concludeInit hframe.cfg hnone]

/-! ## What keeps `IST` -/

/-- Every request but `INIT` keeps `IST`, cut by `rst` or not. -/
theorem exec_ist (hi : i ≠ .init) (h : exec i s = .next t) : t.ist = s.ist := by
  have hfrontEnd (hgated : gated i = true) : t.ist = s.ist := by
    obtain ⟨r, ⟨hframe, -⟩, rfl⟩ := exec_frontEnd_next (.inl hgated) h
    rcases respondFrontEnd_cases r with ⟨-, e⟩ | ⟨-, e⟩ <;> rw [e] <;> exact hframe.ist hi
  cases i with
  | wrc b =>
    obtain ⟨-, -, rfl⟩ := exec_coreInstr_next (rs := false) h
    exact coreRequest_ist false b s
  | wrd b =>
    obtain ⟨-, -, rfl⟩ := exec_coreInstr_next (rs := true) h
    exact coreRequest_ist true b s
  | clrpin id | setpin id | readpin id =>
    obtain ⟨-, -, -, -, -, -, -, -, -, -, hist, -⟩ := pinOperationFrame s t id _ (by simp) h
    exact hist
  | init => exact absurd rfl hi
  | _ => exact hfrontEnd rfl

/-- A presented word that gives a next state decodes to the instruction that ran. -/
theorem runRequest_next {r : Request} (h : runRequest r s = .next t) :
    ∃ i, decode r = some i ∧ exec i s = .next t := by
  unfold runRequest at h
  split at h
  · split at h
    · next i hdecode => exact ⟨i, hdecode, h⟩
    · cases h
  · cases h

/-- Settles O55: a phase keeps `IST`, and so does a request that is not `INIT`. -/
theorem onlyInitAndRstChangeIst : Obligations.OnlyInitAndRstChangeIst := by
  intro s t h hchanged
  obtain ⟨-, h⟩ := onEngine_next h
  have hphase : Host.Outcome.next (phaseStep s) ≠ (.next t : Host.Outcome State Fault Refusal) := fun h =>
    hchanged (Host.Outcome.next.inj h ▸ congrArg OutsideCore.ist (phaseStep_coreFrame s).left)
  rcases hhost : s.host with _ | ⟨r | _ | ⟨r, k⟩, rest⟩ <;> simp only [hhost] at h
  · exact absurd h hphase
  · split at h
    · obtain ⟨i, hdecode, hexec⟩ := runRequest_next h
      obtain rfl : i = .init := by
        by_contra hi
        exact hchanged (exec_ist hi hexec :)
      exact .inr (.inr ⟨r, rest, rfl, hdecode⟩)
    · exact absurd h hphase
  · exact .inl ⟨rest, rfl⟩
  · exact .inr (.inl ⟨r, k, rest, rfl⟩)

end Sys2Proof.Machine
end

section
/-! PROOFS. Errors of the core (spec/60_exceptions.md R191, R196, spec/40_bus_framing.md R104): what a failed
transaction does in each pin phase, and the trace of a request that ends with one. -/

namespace Sys2Proof.Machine

open Sys2Proof.Spec

variable {s : State} {e : Event} {id : PinId} {v : Bit}

/-! ## A failed pin phase -/

/-- `DOE` as a phase sets it before its transaction: enabled at the first data line, released by `P_RS`
(spec/40_bus_framing.md R98, spec/41_transfer_sequencer.md R116). -/
def doeOfPhase (s : State) : Bit :=
  if s.ph = .fData ∧ s.di = 0 then true else if s.ph = .pRs then false else s.doe

/-- After the failed transaction `e` of a pin phase: the answer used up, the lines and `DOE` as given, `PinFault`
(spec/60_exceptions.md R196). -/
def faultedPhase (e : Event) (lines : Lines) (doe : Bit) (s : State) : State :=
  logEvent (failed e) { popDraw s with res := .pinFault, ph := .done, lines := lines, doe := doe }

theorem popDraw_withDoe (doe : Bit) (s : State) :
    popDraw { s with doe := doe } = { popDraw s with doe := doe } := by
  unfold popDraw
  cases s.draws <;> rfl

/-- A failed write leaves its line at a free level, and the drivers as they were enabled or released first. -/
theorem drive_doe_of_fail (h : answersOk s id = false) (doe v : Bit) (next : State → State) :
    drive id v next { s with doe := doe } =
      faultedPhase (.wrote id v) (setLine s.lines id (drawAt s 0).bit) doe s := by
  have hfail : answersOk { s with doe := doe } id = false := h
  rw [drive_of_fail hfail, popDraw_withDoe, nextDraw_eq_drawAt]
  rfl

/-- A failed read changes no line. -/
theorem phasePRead_of_fail (h : answersOk s (.dl (topLine s.cfg.busw)) = false) :
    phasePRead s = faultedPhase (.readBit (.dl (topLine s.cfg.busw)) (drawAt s 0).bit) s.lines s.doe s := by
  unfold phasePRead faultedPhase
  rw [sample_of_fail h]
  obtain ⟨draws, drawn, hpop⟩ := popDraw_eq s
  rw [hpop]
  rfl

/-- The event of `F_DATA` is the write of the bit of the framing on its line (spec/20_memory.md R52). -/
theorem pinEvent_fData (hp : s.ph = .fData) (hdi : s.di.val < busLines s.cfg.busw) :
    pinEvent s = some (.wrote (.dl s.di) ((framingValue s.cfg.busw s.nib s.reqByte).getLsbD s.di.val)) := by
  unfold pinEvent
  rw [hp]
  cases hw : s.cfg.busw with
  | eight => rfl
  | four =>
    have hfour : s.di.val < 4 := by simpa [hw, busLines] using hdi
    cases s.nib
    · rw [framingValue_four_high_getLsbD]
      simp [hfour]
    · rw [framingValue_four_low_getLsbD _ hfour]
      simp [hfour]

/-- Every pin phase but `P_READ` is the write of its event, after it has set `DOE`. The phase is a variable, so that in
each case `pinEvent` and `doeOfPhase` compute. -/
theorem phaseStep_eq_drive (p : Phase) (hinv : EngineInv (goto p s)) (hread : p ≠ .pRead)
    (h : pinEvent (goto p s) = some e) :
    ∃ id v next, e = .wrote id v ∧
      phaseStep (goto p s) = drive id v next { goto p s with doe := doeOfPhase (goto p s) } := by
  cases p with
  | fRs | fRw | fEhi | fElo | pRs | pRw | pEhi | pElo | pEhi2 | pElo2 =>
    cases h
    exact ⟨_, _, _, rfl, rfl⟩
  | fData =>
    have hdoe : doeOfPhase (goto .fData s) = true := by
      by_cases hdi : s.di = 0
      · simp [doeOfPhase, hdi]
      · simpa [doeOfPhase, hdi] using hinv.drivenData rfl hdi
    rw [pinEvent_fData rfl hinv.lineIndex] at h
    cases h
    rw [hdoe]
    exact ⟨_, _, _, rfl, phaseFData_eq (hinv.drivenData rfl)⟩
  | pRead => exact absurd rfl hread
  | idle | fSetup | fPw | fHold | sDelay | pSetup | pPw | pHold | pPw2 | pHold2 | pTest | done => cases h

/-- Settles O37: `P_READ` is a read, every other pin phase a `drive`, and both abort on `fail`. -/
theorem failedPinPhaseAborts : Obligations.FailedPinPhaseAborts := by
  intro s e id hbusy hinv he hid hanswer
  have hfail := answersOk_eq_false_iff.mpr hanswer
  have hne : s.ph ≠ .idle := by
    intro hidle
    simp [pinEvent, controlRow, hidle] at he
  rw [step_of_busy hbusy hne]
  refine congrArg Host.Outcome.next ?_
  change _ = faultedPhase e _ (doeOfPhase s) s
  by_cases hp : s.ph = .pRead
  · have hdoe : doeOfPhase s = s.doe := by simp [doeOfPhase, hp]
    simp only [pinEvent, hp] at he
    cases he
    cases hid
    rw [phaseStep, if_pos hp, hp, hdoe]
    exact phasePRead_of_fail hfail
  · obtain ⟨id', v, next, rfl, hphase⟩ := phaseStep_eq_drive s.ph hinv hp he
    cases hid
    rw [if_neg hp]
    exact hphase.trans (drive_doe_of_fail hfail _ v next)

/-! ## The trace of a request that ends `PinFault` -/

/-- All reads but the last of a poll that reached iteration number `p` are busy. -/
theorem BusyUntil.eq_busy_of_mem_dropLast {p : Nat} {r : Bit} (h : BusyUntil s p)
    (hr : r ∈ (busyAnswers s (p + 1)).dropLast) : r = s.cfg.busy := by
  rw [busyAnswers_succ, List.dropLast_concat, busyAnswers_of_busyUntil h] at hr
  exact List.eq_of_mem_replicate hr

/-- Settles O17: a request that faults has failed in its trace (`coreRequest_outcome`), in which nothing else fails. -/
theorem pinFaultTraceIsPrefix : Obligations.PinFaultTraceIsPrefix := by
  intro s t rs b haccepts hexec hfault
  obtain ⟨-, -, rfl⟩ := exec_coreInstr_next hexec
  obtain ⟨u, hrespond, hcompleted | ⟨-, -, p, before, e, hfails, htrace⟩⟩ := coreRequest_outcome haccepts rs b
  · rw [hrespond] at hfault
    simpa [show u.res = .pinFault from hfault] using hcompleted.res_cases
  · refine ⟨before, e, busyAnswers s (p + 1), ?_, hfails.isPinOperation, fun x hx => ?_,
      (length_busyAnswers s _).trans_le hfails.lt, fun r => hfails.busy.eq_busy_of_mem_dropLast, hfails.isPrefix⟩
    · rw [hrespond, respondCore_trace, htrace, List.append_assoc]
    · exact not_isFailure_of_mem_requestTrace (hfails.isPrefix.subset (List.mem_append_left _ hx))

end Sys2Proof.Machine
end

section
/-! PROOFS. Errors of the front-end (spec/60_exceptions.md R193, R194): what the gate and the range checks answer, and
that the string requests raise neither beyond them. -/

namespace Sys2Proof.Machine

open Sys2Proof.Spec

variable {s t : State} {i : Instr} {next : State → FeResult}

/-- Settles O38: the gate comes before everything else (`exec_of_not_ready`), and a core request ends with a core
status. -/
theorem gateAnswersNotInitialized : Obligations.GateAnswersNotInitialized := by
  refine ⟨fun s i h hist hi => exec_of_not_ready h hi hist, fun s t rs b haccepts hexec hres => ?_⟩
  obtain ⟨-, -, rfl⟩ := exec_coreInstr_next hexec
  have hcore := (coreRequest_ends haccepts rs b).2
  rw [hres] at hcore
  cases hcore

/-- The string loop ends with `OK` or with the status of a core request: `Full` is no error (R145, R147). -/
theorem putText_isCore (h : Accepts s) (text : List Byte) : (putText text s).1.isCore = true := by
  induction text generalizing s with
  | nil => rfl
  | cons b rest ih =>
    have hadvanced : Accepts (advance (coreRequest true b s)) :=
      (requestFrame_putByte_ok (i := .wrchar b) rfl b s).accepts h
    rcases putText_cons_cases b rest s with ⟨-, e⟩ | ⟨-, -, e⟩ | ⟨-, -, e⟩ <;> rw [e]
    · rfl
    · exact ih hadvanced
    · exact (coreRequest_ends h true b).2

/-- A `Ready` engine whose request ends with a core status after the gate does not present `OutOfBounds`. -/
theorem not_outOfBounds_of_isCore (h : FrontEndAccepts s) (hist : s.ist = .ready) (hi : gated i = true)
    (hexec : exec i s = frontEnd (fun t => gate t next) s) (hcore : (next s).1.isCore = true)
    (ht : exec i s = .next t) : t.feResponses ≠ s.feResponses ++ [.outOfBounds] := by
  intro hout
  obtain rfl := Host.Outcome.next.inj (ht.symm.trans (exec_of_ready h hist hi hexec))
  have hstatus : (next s).1 = .outOfBounds := List.singleton_inj.mp (List.append_inj_right' hout rfl)
  rw [hstatus] at hcore
  cases hcore

/-- Settles O39: the range checks come first (`exec_of_outside`, `exec_of_slot_outside`); inside the display a string
request is an address command or none, then the string loop. -/
theorem outOfBoundsChangesNothing : Obligations.OutOfBoundsChangesNothing := by
  refine ⟨fun s line col ch index text bitmap h hist => ⟨fun hout => ?_, fun hout => ?_⟩,
    fun s t i text h hist hexec hi => ?_⟩
  · exact ⟨exec_of_outside h hist rfl rfl hout, exec_of_outside h hist rfl rfl hout,
      exec_of_outside h hist rfl rfl hout⟩
  · exact ⟨exec_of_slot_outside h rfl rfl hist hout, exec_of_slot_outside h rfl rfl hist hout⟩
  · rcases hi with rfl | ⟨line, col, rfl, hline, hcol⟩
    · exact not_outOfBounds_of_isCore h hist rfl rfl (putText_isCore h.1 text) hexec
    · refine not_outOfBounds_of_isCore h hist rfl rfl ?_ hexec
      rw [moveCursor_of_inside hline hcol]
      split
      · exact putText_isCore (accepts_positioned h.1 line col) text
      · exact (coreRequest_ends h.1 false _).2

end Sys2Proof.Machine
end

section
/-! PROOFS. The duration of a core request (spec/70_reset_and_hazards.md R231): the waits of its trace, part by part. -/

namespace Sys2Proof.Machine

open Sys2Proof.Spec

theorem ticksAtLeast_append (c : Config) (tr tr' : List Event) :
    ticksAtLeast c (tr ++ tr') = ticksAtLeast c tr + ticksAtLeast c tr' := by
  induction tr with
  | nil => exact (Nat.zero_add _).symm
  | cons e rest ih => cases e <;> simp [ticksAtLeast, ih, Nat.add_assoc]

/-- Framings of a byte, and strobes of a poll iteration (spec/20_memory.md R52, spec/41_transfer_sequencer.md R124). -/
def strobesPerByte (c : Config) : Nat :=
  match c.busw with
  | .eight => 1
  | .four => 2

theorem ticksAtLeast_emitTrace (c : Config) (rs : Bit) (b : Byte) :
    ticksAtLeast c (emitTrace c rs b) = strobesPerByte c * (c.tAs + c.tPw + c.tH) := by
  unfold emitTrace strobesPerByte
  cases c.busw <;> cases c.rwPresent <;> simp [strobeTrace, ticksAtLeast, waitTicks]
  all_goals omega

theorem ticksAtLeast_pollIteration (c : Config) (r : Bit) :
    ticksAtLeast c (pollIteration c r) = strobesPerByte c * (c.tPw + c.tH) := by
  unfold pollIteration strobesPerByte
  cases c.busw <;> simp [strobeTrace, ticksAtLeast, waitTicks]
  omega

theorem ticksAtLeast_pollTrace (c : Config) (reads : List Bit) :
    ticksAtLeast c (pollTrace c reads) = c.tAs + reads.length * (strobesPerByte c * (c.tPw + c.tH)) := by
  induction reads using List.reverseRecOn with
  | nil => simp [pollTrace, ticksAtLeast, waitTicks]
  | append_singleton reads r ih =>
    rw [pollTrace_concat, ticksAtLeast_append, ih, ticksAtLeast_pollIteration, List.length_append,
      List.length_singleton, Nat.succ_mul, Nat.add_assoc]

/-- Settles O20: a request that does not fault has performed its whole trace, with `PCNT` reads. -/
theorem requestDurationLowerBound : Obligations.RequestDurationLowerBound := by
  intro s t rs b haccepts hexec hres
  obtain ⟨-, -, rfl⟩ := exec_coreInstr_next hexec
  obtain ⟨u, hrespond, ⟨-, hperforms, -⟩ | ⟨hfault, -⟩⟩ := coreRequest_outcome haccepts rs b
  · rw [hrespond]
    have hticks := ticksAtLeast_emitTrace s.cfg rs b
    refine ⟨_, hperforms.trace, fun hno => ?_, fun hconn => ?_⟩
    · rw [requestTrace_eq, ticksAtLeast_append, hticks, settleTrace, if_neg (by simp [hno]), settleWait_eq]
      congr 1
      split <;> rfl
    · rw [requestTrace_eq, ticksAtLeast_append, hticks, settleTrace, if_pos hconn, ticksAtLeast_pollTrace,
        length_busyAnswers, ← Nat.add_assoc]
      rfl
  · rw [hrespond] at hres
    exact absurd hfault hres

end Sys2Proof.Machine
end

section
/-! PROOFS. `rst` between and inside requests (spec/70_reset_and_hazards.md R210 to R212, R229): it resets the engine in
any phase, and a core request that it cuts after `k` phases has run exactly these. -/

namespace Sys2Proof.Machine

open Sys2Proof.Spec

variable {s : State} {rest : List HostEvent}

/-- `rst` is heard in every phase. -/
theorem step_rst (hlegal : legalConfig s.cfg = true) (hhost : s.host = .rst :: rest) :
    step s = .next (resetEngine { s with host := rest }) := by
  simp [step, onEngine_legal hlegal, hhost]

/-- Settles O2: the step is `resetEngine`. -/
theorem rstResetsWithoutPinOperation : Obligations.RstResetsWithoutPinOperation :=
  fun _ _ hlegal hhost =>
    ⟨_, step_rst hlegal hhost, rfl, rfl, rfl, rfl, rfl, rfl, rfl, rfl, rfl, rfl, rfl, rfl, rfl⟩

/-! ## No phase looks at the count to `rst` -/

/-- The same engine with another count to `rst`. -/
def State.withRstIn (r : Option Nat) (s : State) : State := { s with rstIn := r }

variable {r : Option Nat}

theorem popDraw_withRstIn (s : State) : popDraw (s.withRstIn r) = (popDraw s).withRstIn r := by
  unfold popDraw State.withRstIn
  cases s.draws <;> rfl

theorem drive_withRstIn {id : PinId} {v : Bit} {next : State → State}
    (hnext : Function.Commute next (State.withRstIn r)) :
    Function.Commute (drive id v next) (State.withRstIn r) := by
  intro s
  cases h : answersOk s id with
  | true =>
    rw [drive_of_ok h, drive_of_ok (s := s.withRstIn r) h, popDraw_withRstIn]
    exact hnext (logEvent (.wrote id v) { popDraw s with lines := setLine s.lines id v })
  | false =>
    rw [drive_of_fail h, drive_of_fail (s := s.withRstIn r) h, popDraw_withRstIn]
    rfl

theorem sample_withRstIn {id : PinId} {next : Bit → State → State}
    (hnext : ∀ b, Function.Commute (next b) (State.withRstIn r)) :
    Function.Commute (sample id next) (State.withRstIn r) := by
  intro s
  cases h : answersOk s id with
  | true =>
    rw [sample_of_ok h, sample_of_ok (s := s.withRstIn r) h, popDraw_withRstIn]
    exact hnext (readLevel s id) (logEvent (.readBit id (readLevel s id)) (popDraw s))
  | false =>
    rw [sample_of_fail h, sample_of_fail (s := s.withRstIn r) h, popDraw_withRstIn]
    rfl

/-- A branch that does not look at the count to `rst`. -/
theorem ite_eq_withRstIn {p : Prop} [Decidable p] {a b a' b' : State} (ha : a' = a.withRstIn r)
    (hb : b' = b.withRstIn r) : (if p then a' else b') = (if p then a else b).withRstIn r := by
  split <;> assumption

/-- No phase reads or writes the count to `rst`. -/
theorem phaseStep_withRstIn : Function.Commute phaseStep (State.withRstIn r) := by
  intro s
  have hph : (s.withRstIn r).ph = s.ph := rfl
  unfold phaseStep
  rw [hph]
  cases s.ph with dsimp only
  | fRs | fRw | fEhi | fElo | pRw | pEhi | pElo | pEhi2 | pElo2 =>
    refine drive_withRstIn ?_ s
    exact fun _ => rfl
  | pRs =>
    refine drive_withRstIn ?_ { s with doe := false }
    exact fun _ => rfl
  | fData =>
    have hnext : Function.Commute afterDataLine (State.withRstIn r) := fun _ => ite_eq_withRstIn rfl rfl
    have henabled : (if s.di = 0 then { s.withRstIn r with doe := true } else s.withRstIn r) =
        (if s.di = 0 then { s with doe := true } else s).withRstIn r := ite_eq_withRstIn rfl rfl
    exact (congrArg (drive _ _ afterDataLine) henabled).trans (drive_withRstIn hnext _)
  | pRead =>
    refine sample_withRstIn ?_ s
    exact fun _ _ => rfl
  | fHold => exact ite_eq_withRstIn rfl rfl
  | pTest => exact ite_eq_withRstIn rfl (ite_eq_withRstIn rfl rfl)
  | _ => rfl

/-! ## Phases one by one -/

theorem phaseStep_of_idle (h : s.ph = .idle) : phaseStep s = s := by rw [phaseStep, h]

theorem iterate_phaseStep_of_idle (h : s.ph = .idle) (n : Nat) : phaseStep^[n] s = s :=
  Function.iterate_fixed (phaseStep_of_idle h) n

theorem iterate_phaseStep_coreFrame (n : Nat) (s : State) : CoreFrame s (phaseStep^[n] s) := by
  induction n with
  | zero => exact .refl s
  | succ n ih =>
    rw [Function.iterate_succ_apply']
    exact ih.trans (phaseStep_coreFrame _)

/-- With no host event, `k` steps are `k` phases. -/
theorem core_run_eq_iterate (hlegal : legalConfig s.cfg = true) (hhost : s.host = []) (k : Nat) :
    core.run k s = .next (phaseStep^[k] s) := by
  induction k generalizing s with
  | zero => rfl
  | succ k ih =>
    have hstep : step s = .next (phaseStep s) := by simp [step, onEngine_legal hlegal, hhost]
    have hframe := phaseStep_coreFrame s
    rw [core_run_succ hstep, ih (hframe.cfg ▸ hlegal) (hframe.host.trans hhost), Function.iterate_succ_apply]

/-- With no `rst` to come, phases run to `IDLE`, where any more of them change nothing. -/
theorem runPhases_eq_iterate (fuel : Nat) (hr : s.rstIn = none) : runPhases fuel s = phaseStep^[fuel] s := by
  induction fuel generalizing s with
  | zero => rfl
  | succ fuel ih =>
    by_cases hidle : s.ph = .idle
    · rw [runPhases_idle hidle, iterate_phaseStep_of_idle hidle]
    · have hr' := (phaseStep_coreFrame s).rstIn_none hr
      rw [runPhases_busy hidle hr, countToRst_none hr', ih hr', Function.iterate_succ_apply]

/-- With `rst` to come after `k` phases, and fuel enough to reach `IDLE`, `k` phases run. -/
theorem runPhases_withRstIn {fuel : Nat} (hidle : (phaseStep^[fuel] s).ph = .idle) (k : Nat) :
    ∃ r, runPhases fuel (s.withRstIn (some k)) = (phaseStep^[k] s).withRstIn r := by
  induction fuel generalizing s k with
  | zero =>
    have hnow : s.ph = .idle := hidle
    exact ⟨some k, by rw [iterate_phaseStep_of_idle hnow, runPhases_zero]⟩
  | succ fuel ih =>
    by_cases hnow : s.ph = .idle
    · have hsame := runPhases_idle (s := s.withRstIn (some k)) hnow (fuel + 1)
      exact ⟨some k, by rw [iterate_phaseStep_of_idle hnow, hsame]⟩
    · unfold runPhases
      cases k with
      | zero => exact ⟨some 0, if_pos (.inr rfl)⟩
      | succ k =>
        have hgo : ¬ ((s.withRstIn (some (k + 1))).ph = .idle ∨ cutOff (s.withRstIn (some (k + 1))) = true) := by
          simp [cutOff, State.withRstIn, hnow]
        rw [if_neg hgo, phaseStep_withRstIn s]
        exact ih hidle k

/-- After any number of phases a request is in progress, about to respond, or over. -/
theorem iterate_phaseStep_outcome (h : Accepts s) (rs : Bit) (b : Byte) (k : Nat) :
    Running s rs b (phaseStep^[k] (accept rs b s)) ∨ Ended s rs b (phaseStep^[k] (accept rs b s)) ∨
      (phaseStep^[k] (accept rs b s)).ph = .idle := by
  induction k with
  | zero => exact .inl (running_accept h rs b)
  | succ k ih =>
    rw [Function.iterate_succ_apply']
    rcases ih with hrunning | hended | hidle
    · exact hrunning.phaseStep.imp_right .inl
    · rw [phaseStep, hended.1]
      exact .inr (.inr rfl)
    · rw [phaseStep_of_idle hidle]
      exact .inr (.inr hidle)

/-- A request that is not over has presented no status. -/
theorem iterate_phaseStep_coreResponses (h : Accepts s) {rs : Bit} {b : Byte} {k : Nat}
    (hbusy : (phaseStep^[k] (accept rs b s)).ph ≠ .idle) :
    (phaseStep^[k] (accept rs b s)).coreResponses = s.coreResponses := by
  rcases iterate_phaseStep_outcome h rs b k with hrunning | ⟨-, hcompleted | hfaulted⟩ | hidle
  · obtain ⟨tr, hperforms, -⟩ := hrunning.trace
    exact hperforms.coreResponses
  · exact hcompleted.performs.coreResponses
  · exact hfaulted.coreResponses
  · exact absurd hidle hbusy

/-! ## A request cut by `rst` -/

/-- An idle engine runs a request that `rst` will cut, and then is reset. -/
theorem step_idle_cut {req : Request} {k : Nat} (hlegal : legalConfig s.cfg = true) (hidle : s.ph = .idle)
    (hhost : s.host = .cut req k :: rest) :
    step s = thenReset (runRequest req ((s.withHost rest).withRstIn (some k))) := by
  simp [step, onEngine_legal hlegal, hhost, hidle, State.withHost, State.withRstIn]

/-- A core request cut after `k` phases is reset from where `k` phases lead. Cut before its acceptance (`k = 0`) it is
reset from where it began: acceptance writes only registers that the reset writes again. -/
theorem resetEngine_coreRequest_cut (h : Accepts s) (rs : Bit) (b : Byte) (k : Nat) :
    resetEngine (coreRequest rs b (s.withRstIn (some k))) = resetEngine (phaseStep^[k] (accept rs b s)) := by
  have ⟨_, _, hr⟩ := h
  have hidle := (coreRequest_ends h rs b).1
  rw [coreRequest_of_accepts h, runPhases_eq_iterate (s := accept rs b s) _ hr] at hidle
  obtain ⟨r, hrun⟩ := runPhases_withRstIn hidle k
  rcases coreRequest_cases rs b (s.withRstIn (some k)) with ⟨hcut, e⟩ | ⟨-, e⟩ <;> rw [e]
  · obtain rfl : k = 0 := by simpa [cutOff, State.withRstIn] using hcut
    rfl
  · exact (congrArg resetEngine hrun :)

/-- A core instruction on an idle engine of a legal configuration runs its core request, cut by `rst` or not. -/
theorem exec_coreInstr_of_idle (hlegal : legalConfig s.cfg = true) (hidle : s.ph = .idle) (rs : Bit) (b : Byte) :
    exec (coreInstr rs b) s = .next (coreRequest rs b s) := by
  cases rs <;> exact onIdleEngine_idle hlegal hidle _

/-- Settles O58: the step resets the engine from where `k` phases lead (`resetEngine_coreRequest_cut`), and these do not
look at the host's events. -/
theorem cutRequestLeavesPrefix : Obligations.CutRequestLeavesPrefix := by
  intro s rs b w k rest haccepts hdecode hhost
  have ⟨hlegal, hidle, _⟩ := haccepts
  have hstep := step_idle_cut hlegal hidle hhost
  have hport : hostMayPresent ((s.withHost rest).withRstIn (some k)).cfg (.cp w) = !s.cfg.hasFe := rfl
  refine ⟨fun hfe => ?_, fun hfe => ?_⟩
  · rw [hstep, runRequest_internal (by rw [hport, hfe]; rfl)]
    rfl
  · have hbegun : Accepts (s.withHost []) := haccepts
    have hrest : Accepts (s.withHost rest) := haccepts
    have hphases : phaseStep^[k] (accept rs b (s.withHost rest)) =
        (phaseStep^[k] (accept rs b (s.withHost []))).withHost rest :=
      phaseStep_withHost.iterate_left k (accept rs b (s.withHost []))
    have hexec := exec_coreInstr_of_idle (s := (s.withHost rest).withRstIn (some k)) hlegal hidle rs b
    rw [runRequest_decoded (by rw [hport, hfe]; rfl) hdecode, hexec, thenReset, resetEngine_coreRequest_cut hrest,
      hphases] at hstep
    have hrun := core_run_eq_iterate (s := accept rs b (s.withHost [])) hlegal rfl k
    have hframe := iterate_phaseStep_coreFrame k (accept rs b (s.withHost []))
    obtain ⟨hcfg, -, -, -, hfeResp, -, -⟩ := (outsideCore_eq_iff _ _).mp hframe.left
    have hresponses := iterate_phaseStep_coreResponses (rs := rs) (b := b) (k := k) hbegun
    exact ⟨_, _, hstep, hrun, rfl, rfl, rfl, rfl, rfl, hresponses, hfeResp, hcfg, rfl, rfl, rfl, rfl, rfl, rfl, rfl,
      rfl⟩

end Sys2Proof.Machine
end

section
/-! PROOFS. What a front-end request does to the state (spec/42_address_cursor.md R140 to R147, spec/60_exceptions.md
R197): core requests, and between them writes of the front-end's registers. What these two keep, every request keeps. -/

namespace Sys2Proof.Machine

open Sys2Proof.Spec

/-- A core request, or a write of the front-end's registers. -/
inductive FrontEndMove (s : State) : State → Prop where
  | core (rs : Bit) (b : Byte) : FrontEndMove s (coreRequest rs b s)
  | commit (ist : InitState) (cur : Cursor) (dcb : BitVec 3) :
    FrontEndMove s { s with ist := ist, cur := cur, dcb := dcb }

/-- From `s` to `t` a front-end request has run so far. -/
abbrev FrontEndRun : State → State → Prop := Relation.ReflTransGen FrontEndMove

variable {s t : State} {i : Instr} {r : FeResult}

theorem frontEndRun_coreRequest (rs : Bit) (b : Byte) (s : State) : FrontEndRun s (coreRequest rs b s) :=
  .single (.core rs b)

theorem frontEndRun_cur (cur : Cursor) (s : State) : FrontEndRun s { s with cur := cur } :=
  .single (.commit s.ist cur s.dcb)

theorem frontEndRun_tryCommand {cmd : Byte} {next : State → FeResult} (hnext : ∀ t, FrontEndRun t (next t).2)
    (s : State) : FrontEndRun s (tryCommand cmd s next).2 := by
  dsimp only [tryCommand]
  split
  · exact (frontEndRun_coreRequest false cmd s).trans (hnext _)
  · exact frontEndRun_coreRequest false cmd s

theorem frontEndRun_tryData {b : Byte} {next : State → FeResult} (hnext : ∀ t, FrontEndRun t (next t).2) (s : State) :
    FrontEndRun s (tryData b s next).2 := by
  dsimp only [tryData]
  split
  · exact (frontEndRun_coreRequest true b s).trans (hnext _)
  · exact frontEndRun_coreRequest true b s

/-- A check that the request may fail answers at once. -/
theorem frontEndRun_ite {p : Prop} [Decidable p] {e : Status} (h : FrontEndRun s r.2) :
    FrontEndRun s (if p then r else (e, s)).2 := by
  split
  · exact h
  · exact .refl

theorem frontEndRun_putByte_ok (b : Byte) (s : State) : FrontEndRun s (advance (coreRequest true b s)) := by
  have hcore := frontEndRun_coreRequest true b s
  unfold advance
  split
  · exact hcore.trans (frontEndRun_cur _ _)
  · exact hcore

theorem frontEndRun_putChar (b : Byte) (s : State) : FrontEndRun s (putChar b s).2 := by
  unfold putChar
  rcases putByte_cases b s with e | e | e
  · rw [e]
  · rw [e]
    exact frontEndRun_putByte_ok b s
  · rw [e]
    exact frontEndRun_coreRequest true b s

theorem frontEndRun_putText (text : List Byte) (s : State) : FrontEndRun s (putText text s).2 := by
  induction text generalizing s with
  | nil => exact .refl
  | cons b rest ih =>
    rcases putText_cons_cases b rest s with ⟨-, e⟩ | ⟨-, -, e⟩ | ⟨-, -, e⟩
    · rw [e]
    · rw [e]
      exact (frontEndRun_putByte_ok b s).trans (ih _)
    · rw [e]
      exact frontEndRun_coreRequest true b s

theorem frontEndRun_moveCursor {line col : Byte} {next : State → FeResult} (hnext : ∀ t, FrontEndRun t (next t).2)
    (s : State) : FrontEndRun s (moveCursor line col s next).2 :=
  frontEndRun_ite (frontEndRun_tryCommand (fun t => (frontEndRun_cur _ t).trans (hnext _)) s)

theorem frontEndRun_sendDisplay (dcb : BitVec 3) (s : State) : FrontEndRun s (sendDisplay dcb s).2 :=
  frontEndRun_tryCommand (fun t => .single (.commit t.ist t.cur dcb)) s

theorem frontEndRun_sendBitmap {next : State → FeResult} (hnext : ∀ t, FrontEndRun t (next t).2) (bitmap : List Byte)
    (s : State) : FrontEndRun s (sendBitmap bitmap s next).2 := by
  induction bitmap generalizing s with
  | nil => exact hnext s
  | cons b rest ih => exact frontEndRun_tryData ih s

theorem frontEndRun_sendCommands (cmds : List Byte) (s : State) : FrontEndRun s (sendCommands cmds s).2 := by
  induction cmds generalizing s with
  | nil => exact .refl
  | cons c rest ih => exact frontEndRun_tryCommand ih s

theorem frontEndRun_concludeInit (h : FrontEndRun s r.2) : FrontEndRun s (concludeInit r).2 := by
  unfold concludeInit
  split
  · exact h.tail (.commit .ready ⟨0, 0⟩ _)
  · exact h.tail (.commit .uninitialized r.2.cur r.2.dcb)

/-- Every front-end request is a body run by `frontEnd` that makes such moves only. -/
theorem exec_eq_frontEnd_run (hi : gated i = true ∨ i = .init) (s : State) :
    ∃ body, exec i s = frontEnd body s ∧ FrontEndRun s (body s).2 := by
  unfold exec
  cases i with dsimp only
  | wrc | wrd | clrpin | setpin | readpin => rcases hi with hi | hi <;> cases hi
  | init =>
    refine ⟨_, rfl, frontEndRun_concludeInit (.head (.commit .initializing s.cur s.dcb) ?_)⟩
    exact frontEndRun_sendCommands _ _
  | wrchar ch => exact ⟨_, rfl, frontEndRun_ite (frontEndRun_putChar ch s)⟩
  | wrstr text => exact ⟨_, rfl, frontEndRun_ite (frontEndRun_putText text s)⟩
  | wrint v => exact ⟨_, rfl, frontEndRun_ite (frontEndRun_putText (decimalText v) s)⟩
  | wrcharat line col ch => exact ⟨_, rfl, frontEndRun_ite (frontEndRun_moveCursor (frontEndRun_putChar ch) s)⟩
  | wrstrat line col text => exact ⟨_, rfl, frontEndRun_ite (frontEndRun_moveCursor (frontEndRun_putText text) s)⟩
  | setcursor line col => exact ⟨_, rfl, frontEndRun_ite (frontEndRun_moveCursor (fun _ => .refl) s)⟩
  | clear | home => exact ⟨_, rfl, frontEndRun_ite (frontEndRun_tryCommand (frontEndRun_cur _) s)⟩
  | shiftl | shiftr => exact ⟨_, rfl, frontEndRun_ite (frontEndRun_tryCommand (fun _ => .refl) s)⟩
  | dispon | dispoff | curon | curoff | blinkon | blinkoff =>
    exact ⟨_, rfl, frontEndRun_ite (frontEndRun_sendDisplay _ s)⟩
  | wrglyph index => exact ⟨_, rfl, frontEndRun_ite (frontEndRun_ite (frontEndRun_putChar index s))⟩
  | defglyph index bitmap =>
    refine ⟨_, rfl, frontEndRun_ite (frontEndRun_ite (frontEndRun_tryCommand (fun t => ?_) s))⟩
    exact frontEndRun_sendBitmap (fun u => frontEndRun_tryCommand (fun _ => .refl) u) bitmap t

/-- A front-end request that gives a next state presented how its moves ended. -/
theorem exec_frontEnd_run (hi : gated i = true ∨ i = .init) (h : exec i s = .next t) :
    ∃ r, FrontEndRun s r.2 ∧ t = respondFrontEnd r := by
  obtain ⟨body, hbody, hrun⟩ := exec_eq_frontEnd_run hi s
  obtain ⟨-, -, h⟩ := onIdleEngine_next (hbody ▸ h)
  split at h
  · exact ⟨body s, hrun, (Host.Outcome.next.inj h).symm⟩
  · cases h

end Sys2Proof.Machine
end

section
/-! PROOFS. Engine and controller never both drive the data lines while no write of `RW` fails
(spec/70_reset_and_hazards.md R228): every phase keeps `WriteBeforeDrive`, and with it every request. -/

namespace Sys2Proof.Machine

open Sys2Proof.Spec

variable {s t u : State}

/-! ## Operations -/

/-- The phases of a framing that lead to driving the data lines, or in which they are driven: those in which
`WriteBeforeDrive` asks for "write". -/
abbrev drivingPhases : List Phase := [.fData, .fSetup, .fEhi, .fPw, .fElo, .fHold]

/-- `WriteBeforeDrive` speaks of `DOE`, `RW` and `PH` only: with the same `RW` less may be driven. -/
theorem writeBeforeDrive_of_frame (h : WriteBeforeDrive s) (hcfg : t.cfg = s.cfg) (hrw : t.lines.rw = s.lines.rw)
    (hdoe : t.doe = true → s.doe = true) (hph : t.ph ∈ drivingPhases → s.ph ∈ drivingPhases) :
    WriteBeforeDrive t := by
  obtain ⟨hdrives, hphase⟩ := h
  unfold WriteBeforeDrive
  rw [hcfg, hrw]
  exact ⟨hdrives ∘ hdoe, hphase ∘ hph⟩

theorem writeBeforeDrive_goto {p q : Phase} (h : WriteBeforeDrive s) (hp : s.ph = p)
    (hq : q ∈ drivingPhases → p ∈ drivingPhases) : WriteBeforeDrive (goto q s) :=
  writeBeforeDrive_of_frame h rfl rfl id (hp ▸ hq)

theorem writeBeforeDrive_abort (h : WriteBeforeDrive s) (e : Status) : WriteBeforeDrive (abort e s) :=
  writeBeforeDrive_of_frame h rfl rfl id nofun

theorem writeBeforeDrive_waitFor (h : WriteBeforeDrive s) (w : WaitParam) : WriteBeforeDrive (waitFor w s) := h

/-- A transaction that leaves `RW`. -/
theorem writeBeforeDrive_transaction (h : WriteBeforeDrive s) (e : Event) {l : Lines} (hl : l.rw = s.lines.rw) :
    WriteBeforeDrive (logEvent e { popDraw s with lines := l }) :=
  writeBeforeDrive_of_frame h (popDraw_cfg s) hl (by simp) (by simp)

/-- A phase that writes another line than `RW` keeps it if going on does. -/
theorem writeBeforeDrive_drive {id : PinId} {v : Bit} {next : State → State} (h : WriteBeforeDrive s) (hid : id ≠ .rw)
    (hnext : ∀ u, WriteBeforeDrive u → u.cfg = s.cfg → u.ph = s.ph → WriteBeforeDrive (next u)) :
    WriteBeforeDrive (drive id v next s) := by
  have hline (v : Bit) : (setLine s.lines id v).rw = s.lines.rw := by
    simpa [lineLevel, hid] using lineLevel_setLine s.lines id .rw v
  rcases drive_cases id v next s with ⟨-, e⟩ | ⟨-, e⟩ <;> rw [e]
  · exact hnext _ (writeBeforeDrive_transaction h _ (hline _)) (popDraw_cfg s) (popDraw_ph s)
  · exact writeBeforeDrive_abort (writeBeforeDrive_transaction h (.writeFailed id v) (hline _)) _

/-- A sampling phase likewise. -/
theorem writeBeforeDrive_sample {id : PinId} {next : Bit → State → State} (h : WriteBeforeDrive s)
    (hnext : ∀ b u, WriteBeforeDrive u → u.ph = s.ph → WriteBeforeDrive (next b u)) :
    WriteBeforeDrive (sample id next s) := by
  have hread (e : Event) : WriteBeforeDrive (logEvent e (popDraw s)) :=
    writeBeforeDrive_transaction h e (l := (popDraw s).lines) (by rw [popDraw_lines])
  rcases sample_cases id next s with ⟨-, e⟩ | ⟨-, e⟩ <;> rw [e]
  · exact hnext _ _ (hread _) (popDraw_ph s)
  · exact writeBeforeDrive_abort (hread _) _

/-! ## Phases -/

/-- `F_RW` puts `RW` to "write" if its transaction answers `ok` (spec/40_bus_framing.md R97). -/
theorem writeBeforeDrive_phaseFRw (hok : answersOk s .rw = true) : WriteBeforeDrive (phaseFRw s) := by
  unfold phaseFRw
  rw [drive_of_ok hok]
  simp [WriteBeforeDrive, setLine]

/-- `P_RW` puts `RW` to "read" on released data lines (spec/41_transfer_sequencer.md R117). -/
theorem writeBeforeDrive_phasePRw (hdoe : s.doe = false) : WriteBeforeDrive (phasePRw s) := by
  unfold phasePRw
  rcases drive_cases .rw s.cfg.lvlRead (goto .pSetup) s with ⟨-, e⟩ | ⟨-, e⟩ <;> rw [e] <;>
    simp [WriteBeforeDrive, hdoe]

/-- With a read/write line every phase keeps it, if `F_RW` does not fail and `P_RW` finds the data lines released. -/
theorem phaseStep_writeBeforeDrive (h : WriteBeforeDrive s) (hconn : s.cfg.rwPresent = true)
    (hreleased : s.ph = .pRw → s.doe = false) (hok : s.ph = .fRw → answersOk s .rw = true) :
    WriteBeforeDrive (phaseStep s) := by
  unfold phaseStep
  cases hp : s.ph with dsimp only
  | idle => exact h
  | fRs =>
    refine writeBeforeDrive_drive h nofun fun u hu hcfg _ => ?_
    have hfirst : WriteBeforeDrive { u with di := 0 } := hu
    rw [if_pos (hcfg ▸ hconn)]
    exact writeBeforeDrive_goto hfirst rfl nofun
  | fRw => exact writeBeforeDrive_phaseFRw (hok hp)
  | fData =>
    have hwrite : s.lines.rw = s.cfg.lvlWrite := h.2 (by simp [hp])
    have henabled : WriteBeforeDrive (if s.di = 0 then { s with doe := true } else s) := by
      split
      · exact ⟨fun _ => hwrite, fun _ => hwrite⟩
      · exact h
    have hph : (if s.di = 0 then { s with doe := true } else s).ph = .fData := by split <;> exact hp
    refine writeBeforeDrive_drive henabled nofun fun u hu _ hu' => ?_
    split
    · exact writeBeforeDrive_goto hu (hu'.trans hph) (by decide)
    · exact hu
  | fEhi | fElo | pEhi | pElo | pEhi2 | pElo2 =>
    exact writeBeforeDrive_drive h nofun fun _ hu _ hu' => writeBeforeDrive_goto hu (hu'.trans hp) (by decide)
  | fSetup | fPw | pSetup | pPw | pPw2 | pHold2 =>
    exact writeBeforeDrive_goto (writeBeforeDrive_waitFor h _) hp (by decide)
  | fHold =>
    dsimp only [phaseFHold]
    split
    · have hsecond : WriteBeforeDrive { waitFor .tH s with nib := true, di := 0 } :=
        writeBeforeDrive_waitFor h .tH
      exact writeBeforeDrive_goto hsecond hp (by decide)
    · exact writeBeforeDrive_goto (writeBeforeDrive_waitFor h .tH) hp (by split <;> decide)
  | sDelay => exact writeBeforeDrive_abort (writeBeforeDrive_waitFor h _) .ok
  | pRs =>
    have hfree : WriteBeforeDrive { s with doe := false } := writeBeforeDrive_of_frame h rfl rfl nofun id
    exact writeBeforeDrive_drive hfree nofun fun _ hu _ hu' => writeBeforeDrive_goto hu (hu'.trans hp) (by decide)
  | pRw => exact writeBeforeDrive_phasePRw (hreleased hp)
  | pRead =>
    refine writeBeforeDrive_sample h fun b u hu hu' => ?_
    have hsampled : WriteBeforeDrive { u with bfs := b } := hu
    exact writeBeforeDrive_goto hsampled (hu'.trans hp) (by decide)
  | pHold =>
    unfold phasePHold
    split <;> exact writeBeforeDrive_goto (writeBeforeDrive_waitFor h .tH) hp (by decide)
  | pTest =>
    rw [phasePTest_eq]
    have hcounted : WriteBeforeDrive { s with pcnt := s.pcnt + 1 } := h
    split
    · exact writeBeforeDrive_abort hcounted .ok
    · split
      · exact writeBeforeDrive_abort hcounted .hardwareTimeout
      · exact writeBeforeDrive_goto hcounted hp (by decide)
  | done =>
    have hresponded : WriteBeforeDrive { s with coreResponses := s.coreResponses ++ [s.res] } := h
    exact writeBeforeDrive_goto hresponded hp (by decide)

/-! ## Runs -/

/-- From `s` to `t`, unless a write of `RW` failed, `WriteBeforeDrive` is kept. -/
def KeepsWriteBeforeDrive (s t : State) : Prop :=
  ∃ new, t.trace = s.trace ++ new ∧
    ((∀ v, Event.writeFailed .rw v ∉ new) → WriteBeforeDrive s → WriteBeforeDrive t)

/-- Whatever else changes, without an event. -/
theorem keepsWriteBeforeDrive_of_trace (htrace : t.trace = s.trace) (h : WriteBeforeDrive s → WriteBeforeDrive t) :
    KeepsWriteBeforeDrive s t :=
  ⟨[], by simp [htrace], fun _ => h⟩

theorem KeepsWriteBeforeDrive.trans (hst : KeepsWriteBeforeDrive s t) (htu : KeepsWriteBeforeDrive t u) :
    KeepsWriteBeforeDrive s u := by
  obtain ⟨new, htrace, hkeeps⟩ := hst
  obtain ⟨new', htrace', hkeeps'⟩ := htu
  refine ⟨new ++ new', by rw [htrace', htrace, List.append_assoc], fun hok hs => ?_⟩
  simp only [List.mem_append, not_or] at hok
  exact hkeeps' (fun v => (hok v).2) (hkeeps (fun v => (hok v).1) hs)

/-- If none of the events added is a failed write of `RW`. -/
theorem KeepsWriteBeforeDrive.writeBeforeDrive (h : KeepsWriteBeforeDrive s t) (hs : WriteBeforeDrive s)
    (hok : ∀ v, Event.writeFailed .rw v ∉ t.trace.drop s.trace.length) : WriteBeforeDrive t := by
  obtain ⟨new, htrace, hkeeps⟩ := h
  rw [htrace, List.drop_left] at hok
  exact hkeeps hok hs

theorem phaseStep_keepsWriteBeforeDrive (hconn : s.cfg.rwPresent = true) (hreleased : s.ph = .pRw → s.doe = false) :
    KeepsWriteBeforeDrive s (phaseStep s) := by
  obtain ⟨-, ⟨new, hnew⟩, -⟩ := phaseStep_coreFrame s
  have htrace := trace_of_history_append hnew.symm
  refine ⟨_, htrace, fun hok h => phaseStep_writeBeforeDrive h hconn hreleased fun hp => ?_⟩
  by_contra hfail
  have hfailed : (phaseStep s).trace = s.trace ++ [.writeFailed .rw s.cfg.lvlWrite] := by
    rw [phaseStep, hp, phaseFRw, drive_of_fail (by simpa using hfail), abort_trace, logEvent_trace,
      trace_popDraw_lines]
  rw [List.append_cancel_left (htrace.symm.trans hfailed)] at hok
  exact hok _ (List.mem_singleton_self _)

/-- A core request keeps it, cut by `rst` or not: its poll begins by releasing the data lines. -/
theorem coreRequest_keepsWriteBeforeDrive (hconn : s.cfg.rwPresent = true) (rs : Bit) (b : Byte) :
    KeepsWriteBeforeDrive s (coreRequest rs b s) := by
  rcases coreRequest_cases rs b s with ⟨-, e⟩ | ⟨-, e⟩ <;> rw [e]
  · exact keepsWriteBeforeDrive_of_trace rfl id
  · have haccepted : KeepsWriteBeforeDrive s (accept rs b s) :=
      keepsWriteBeforeDrive_of_trace rfl fun h => writeBeforeDrive_of_frame h rfl rfl id nofun
    refine (runPhases_induction (P := fun u => Transferring s.cfg rs b u ∧ KeepsWriteBeforeDrive s u)
      (fun u _ ⟨htransfer, hkeeps⟩ => ?_) _ _ ⟨transferring_accept rs b s, haccepted⟩).2
    have hbus := htransfer.bus
    have hphase : KeepsWriteBeforeDrive u (countToRst (phaseStep u)) :=
      phaseStep_keepsWriteBeforeDrive (by rw [htransfer.withinPins.cfg, hconn]) fun hp => by
        simp only [busPrepared, hp] at hbus
        exact hbus.2
    exact ⟨(phaseStep_transferring htransfer).countToRst, hkeeps.trans hphase⟩

/-- And so does a front-end request: its other moves do nothing on the bus. -/
theorem FrontEndRun.keepsWriteBeforeDrive (h : FrontEndRun s t) (hconn : s.cfg.rwPresent = true) :
    t.cfg.rwPresent = true ∧ KeepsWriteBeforeDrive s t := by
  induction h with
  | refl => exact ⟨hconn, keepsWriteBeforeDrive_of_trace rfl id⟩
  | tail _ hmove ih =>
    obtain ⟨hconn, hkeeps⟩ := ih
    cases hmove with
    | core rs b =>
      have hcore := coreRequest_keepsWriteBeforeDrive hconn rs b
      exact ⟨by rw [(coreRequest_coreFrame rs b _).cfg, hconn], hkeeps.trans hcore⟩
    | commit => exact ⟨hconn, hkeeps.trans (keepsWriteBeforeDrive_of_trace rfl id)⟩

/-- An engine in its reset state does not drive. -/
theorem writeBeforeDrive_resetEngine (s : State) : WriteBeforeDrive (resetEngine s) := ⟨nofun, nofun⟩

/-- Settles O57: a step of a busy engine is a phase or `rst`; a request is a core request, or a run of the front-end,
which `respondFrontEnd` ends without an event. -/
theorem noDataLineContention : Obligations.NoDataLineContention := by
  refine ⟨?_, fun s rs b h => writeBeforeDrive_of_frame h rfl rfl id nofun,
    fun s t hinv hconn hbusy h hstep hok => ?_, fun s t i _ hconn h hi hexec hok => ?_⟩
  · rintro _ ⟨c, host, draws, drawn, -, rfl⟩
    exact ⟨nofun, nofun⟩
  · by_cases hrst : s.host.head? = some .rst
    · obtain ⟨rest, hhost⟩ := List.head?_eq_some_iff.mp hrst
      rw [step_rst hinv.legal hhost] at hstep
      cases hstep
      exact writeBeforeDrive_resetEngine _
    · rw [step_busy hinv.legal hbusy hrst] at hstep
      cases hstep
      exact (phaseStep_keepsWriteBeforeDrive hconn fun hp => hinv.released (by rw [hp]; rfl)).writeBeforeDrive h hok
  · have hkeeps : KeepsWriteBeforeDrive s t := by
      rcases hi with ⟨rs, b, rfl⟩ | hi
      · obtain ⟨-, -, rfl⟩ := exec_coreInstr_next hexec
        exact coreRequest_keepsWriteBeforeDrive hconn rs b
      · obtain ⟨r, hrun, rfl⟩ := exec_frontEnd_run hi hexec
        have hresponded : KeepsWriteBeforeDrive r.2 (respondFrontEnd r) := by
          rcases respondFrontEnd_cases r with ⟨-, e⟩ | ⟨-, e⟩ <;> rw [e] <;>
            exact keepsWriteBeforeDrive_of_trace rfl id
        exact (hrun.keepsWriteBeforeDrive hconn).2.trans hresponded
    exact hkeeps.writeBeforeDrive h hok

end Sys2Proof.Machine
end

section
/-! PROOFS. Words of the spec's vectors (spec/95_test_vectors.md V1, V3, V32, V33) decode as the spec says. -/

namespace Sys2Proof

open Sys2Proof.Spec

/-- Settles O7: each word is the encoding of its well-formed instruction (`decode_eq_some_iff`), and the last `WRSTR` has
four bytes where its `len` byte asks for seven (`decodeFe_eq_none_iff`). -/
theorem sampleWordsDecode : Obligations.SampleWordsDecode := by
  have hlength : requestLength [0x03, 0x05, 0x48, 0x69] ≠ some 4 := by decide
  have hshort : decodeFe [0x03, 0x05, 0x48, 0x69] = none := decodeFe_eq_none_iff.mpr hlength
  refine ⟨?_, ?_, ?_, ?_, ?_, ?_, ?_, ?_, ?_, hshort⟩ <;> exact decode_eq_some_iff.mpr ⟨rfl, rfl⟩

end Sys2Proof
end
